-- ==== Sys2Proof/Word.lean ====
section
/-! DEFINITION. The plain data of the ports: the byte, and what the transport is asked and answers
(00_scope.md R7, R10; 30_encoding.md R97). -/

namespace Sys2Proof

/-- A byte is 8 bits (R6, R7). -/
abbrev Byte := BitVec 8

/-- What a call of `TIssue` answers: `TFail`, or zero or more frames in the order the transport
returns them (R10). Nothing is assumed of their number, length or content (R73). -/
inductive IssueAnswer where
  /-- `TFail`: the transport-level failure. -/
  | fail
  /-- `Frames(fs)`. -/
  | frames (fs : List (List Byte))
  deriving DecidableEq, Repr, Inhabited

/-- What a call of `TInventory` answers (R10): `None`, or `Uid(u)` with 1 to 16 bytes. A UID has a
first byte by construction; `InvAnswer.uid?` reads at most 15 more (log entry 4). -/
inductive InvAnswer where
  /-- `None`; a call that "raises" is the same (R10, R180). -/
  | noTag
  /-- `Uid(u)`, u = `first` followed by `rest`. -/
  | uid (first : Byte) (rest : List Byte)
  deriving DecidableEq, Repr, Inhabited

/-- A transport request (R97, R103): the triple of `TIssue`, or `TInventory`, which has none. -/
inductive Request where
  | issue (flags cc : Byte) (payload : List Byte)
  | inventory
  deriving DecidableEq, Repr

/-- One transport call with its answer: an entry of the history (R72). -/
inductive Call where
  | issue (flags cc : Byte) (payload : List Byte) (answer : IssueAnswer)
  | inventory (answer : InvAnswer)
  deriving DecidableEq, Repr

end Sys2Proof
end

