-- ==== Sys2Proof/Config.lean ====
section
/-! DEFINITION. What an implementation fixes: the parameters of 00_scope.md R5 marked "param", and
the free values, which are opaque constants. -/

namespace Sys2Proof

/-- The configuration of a block: the "param" rows of R5. State holds one, no step changes it, and a
statement about every state holds for every value of it (log entry 7). -/
structure Cfg where
  /-- HDR_BYTES: bytes of response header before the payload in a frame (R97). -/
  hdrBytes : Nat
  /-- CC_SELECT (R102). -/
  ccSelect : Byte
  /-- CC_READ_CONFIG (R98). -/
  ccReadConfig : Byte
  /-- CC_WRITE_CONFIG (R99). -/
  ccWriteConfig : Byte
  /-- CC_READ_SRAM (R100). -/
  ccReadSram : Byte
  /-- CC_WRITE_SRAM (R101). -/
  ccWriteSram : Byte
  /-- OPTS_SELECT_CMD, in the layout of R96; `address` and `inventory` are fixed by R102 whatever
  stands here (log entry 8). -/
  optsSelectCmd : BitVec 9
  /-- OPTS_TUNNEL, in the layout of R96. -/
  optsTunnel : BitVec 9
  /-- LOCK_PATTERN_I2C_NFC (R191). -/
  lockPatternI2cNfc : BitVec 2
  /-- LOCK_PATTERN_NFC_I2C (R191). -/
  lockPatternNfcI2c : BitVec 2
  /-- WDG_RELOAD_ON_TRANSITION (R199). -/
  wdgReloadOnTransition : Bool
  /-- SRAM_PROT_MASK (R40, R143). -/
  sramProtMask : Byte
  deriving DecidableEq, Repr

namespace Config

/-- FREE VALUE: the answer of the transport to call number n when the environment has lined up none
(R73, U1; log entry 2). -/
opaque freeIssue : Nat → IssueAnswer

/-- FREE VALUE: the answer to an inventory call, as `freeIssue`. -/
opaque freeInventory : Nat → InvAnswer

/-- FREE VALUE: byte `index` of SESS_UID or RXBUF, past the bytes a write of the register gives it, when
`calls` transport calls have been made (R22, R27, U8 "any value"; log entry 17). -/
opaque freeByte (calls index : Nat) : Byte

/-- LOCK_PATTERN_I2C_NFC of the reset configuration: OPEN, no default (R5, U13; log entry 7). -/
opaque lockPatternI2cNfc : BitVec 2

/-- LOCK_PATTERN_NFC_I2C of the reset configuration: OPEN, no default (R5, U13; log entry 7). -/
opaque lockPatternNfcI2c : BitVec 2

/-- TICK_INTERVAL: OPEN, owned by the host; no rule depends on it (R5, R262). -/
opaque tickInterval : Nat

end Config

/-- The defaults of R5. The command codes are general knowledge there (G1): nothing rests on them,
since every statement ranges over the configuration. -/
def Cfg.defaults : Cfg where
  hdrBytes := 1
  ccSelect := 0x25#8
  ccReadConfig := 0xC0#8
  ccWriteConfig := 0xC1#8
  ccReadSram := 0xD2#8
  ccWriteSram := 0xD3#8
  optsSelectCmd := 0b100000000#9
  optsTunnel := 0b010000000#9
  lockPatternI2cNfc := Config.lockPatternI2cNfc
  lockPatternNfcI2c := Config.lockPatternNfcI2c
  wdgReloadOnTransition := true
  sramProtMask := 0xFF#8

end Sys2Proof
end

