-- ==== Sys2Proof/Syntax.lean ====
section
/-! DEFINITION. The instructions: one constructor for each of the 28 rows of spec/opcode_table.json.
Operand fields an operation does not use are ignored (30_encoding.md R90) and stand in no
constructor. -/

namespace Sys2Proof

/-- The nine Booleans of the command-flag encoder (R96, R130). -/
structure Options where
  doubleSubCarrier : Bool
  highDataRate : Bool
  inventory : Bool
  protocolExtension : Bool
  afi : Bool
  singleSlot : Bool
  option : Bool
  select : Bool
  address : Bool
  deriving DecidableEq, Repr

/-- One constructor per row of the opcode table. -/
inductive Instr where
  /-- TICK (R190). -/
  | tick
  /-- READ_BLOCK a (R140). -/
  | readBlock (a : Byte)
  /-- READ_BYTE a, b (R141). -/
  | readByte (a b : Byte)
  /-- READ_REGISTER_BIT (R142): the field a[47:40], whose high nibble must be zero and whose low
  nibble is the field identifier. -/
  | readRegisterBit (a : Byte)
  /-- READ_CONFIG_BIT (R143): the field as for READ_REGISTER_BIT. -/
  | readConfigBit (a : Byte)
  /-- WRITE_BLOCK a, w (R144). -/
  | writeBlock (a : Byte) (w : BitVec 32)
  /-- MBX_READ b (R162): b = total_blocks, 0 meaning absent. -/
  | mbxRead (b : Byte)
  /-- MBX_WRITE (R164). -/
  | mbxWrite
  /-- DISCOVER (R180). -/
  | discover
  /-- SELECT (R181). -/
  | select
  /-- ESTABLISH (R182). -/
  | establish
  /-- DATA_DIRECTION (R191). -/
  | dataDirection
  /-- RESERVED_OP (R92): op 0xC to 0xF; `oo` is op[1:0]. -/
  | reservedOp (oo : BitVec 2)
  /-- H_Init, STATE code 0 (R193). -/
  | hInit
  /-- H_TriggerEnergyHarvest, STATE code 1 (R194). -/
  | hTriggerEnergyHarvest
  /-- H_WaitI2cToNfc, STATE code 2 (R195). -/
  | hWaitI2cToNfc
  /-- H_WaitNfcToI2c, STATE code 3 (R196). -/
  | hWaitNfcToI2c
  /-- H_Fatal, STATE code 4 (R197). -/
  | hFatal
  /-- H_Fatal_default_5_7, STATE codes 5 and 7 (R197); `x` is bit 1 of the code. -/
  | hFatalDefault57 (x : Bool)
  /-- H_Fatal_default_6, STATE code 6 (R197). -/
  | hFatalDefault6
  /-- FLAGS, the request-flags byte 0osapihd (R95). -/
  | flags (o s a p i h d : Bool)
  /-- ENCODE_FLAGS (R130). -/
  | encodeFlags (opts : Options)
  /-- T_READ_CONFIG a (R98). -/
  | tReadConfig (a : Byte)
  /-- T_WRITE_CONFIG a, V (R99). -/
  | tWriteConfig (a : Byte) (v : BitVec 32)
  /-- T_READ_SRAM a, n (R100): n blocks, 1 <= n <= 15. -/
  | tReadSram (a : Byte) (n : Nat)
  /-- T_WRITE_SRAM a, D (R101): D is n whole blocks, 1 <= n <= 15. -/
  | tWriteSram (a : Byte) (d : List Byte)
  /-- T_SELECT (R102): its payload is the session's UID. -/
  | tSelect
  /-- T_INVENTORY (R103). -/
  | tInventory
  deriving DecidableEq, Repr

end Sys2Proof
end

