-- ==== Sys2Proof/Machine/Flags.lean ====
section
/-! DEFINITION. FLAGENC, the command-flag encoder (40_flag_encoder.md R130 to R132; 30_encoding.md
R95, R96), and the two flags bytes the block sends (R11, R102). -/

namespace Sys2Proof

/-- The nine options as the vector FE_OPTS[8:0] (R96): bit i is the i-th name of R96's list. -/
def Options.toBits (o : Options) : BitVec 9 :=
  BitVec.ofBool o.address ++ BitVec.ofBool o.select ++ BitVec.ofBool o.option ++
    BitVec.ofBool o.singleSlot ++ BitVec.ofBool o.afi ++ BitVec.ofBool o.protocolExtension ++
    BitVec.ofBool o.inventory ++ BitVec.ofBool o.highDataRate ++ BitVec.ofBool o.doubleSubCarrier

/-- The nine options a vector FE_OPTS[8:0] names (R96). -/
def Options.ofBits (v : BitVec 9) : Options where
  doubleSubCarrier := v.getLsbD 0
  highDataRate := v.getLsbD 1
  inventory := v.getLsbD 2
  protocolExtension := v.getLsbD 3
  afi := v.getLsbD 4
  singleSlot := v.getLsbD 5
  option := v.getLsbD 6
  select := v.getLsbD 7
  address := v.getLsbD 8

namespace Machine

/-- ENCODE_FLAGS (R130): bits 5 and 4 are chosen by `inventory`, a multiplexer and not a logical OR
(R132, D6); bit 7 is RFU and always 0. -/
def encodeFlags (o : Options) : Byte :=
  BitVec.ofBool false ++ BitVec.ofBool o.option ++
    BitVec.ofBool (if o.inventory then o.singleSlot else o.address) ++
    BitVec.ofBool (if o.inventory then o.afi else o.select) ++
    BitVec.ofBool o.protocolExtension ++ BitVec.ofBool o.inventory ++
    BitVec.ofBool o.highDataRate ++ BitVec.ofBool o.doubleSubCarrier

/-- The FE_OPTS to FE_FLAGS port: ENCODE_FLAGS of the vector (R96, R131). -/
def encodeFlagBits (v : BitVec 9) : Byte := encodeFlags (Options.ofBits v)

/-- `F = ENCODE_FLAGS(OPTS_TUNNEL)`, the flags of every tunneled read and write (R11). -/
def tunnelFlags (c : Cfg) : Byte := encodeFlagBits c.optsTunnel

/-- ENCODE_FLAGS(OPTS_SELECT_CMD): `address` is 1 and `inventory` is 0 whatever the parameter says
(R102, D14; log entry 8). -/
def selectFlags (c : Cfg) : Byte :=
  encodeFlags { Options.ofBits c.optsSelectCmd with address := true, inventory := false }

/-- The option vector of a FLAGS byte 0osapihd (R95): bits 5 and 4 name single_slot and afi when
`inventory` is set, address and select when it is not; the two options the byte does not carry are
false (log entry 10). -/
def flagsOptions (o s a p i h d : Bool) : Options where
  doubleSubCarrier := d
  highDataRate := h
  inventory := i
  protocolExtension := p
  afi := i && a
  singleSlot := i && s
  option := o
  select := !i && a
  address := !i && s

end Machine

end Sys2Proof
end

