-- ==== Sys2Proof/WellFormed.lean ====
section
/-! DEFINITION. Which instructions the spec's formats admit, and which configurations keep the five
transport commands apart. -/

namespace Sys2Proof

/-- A block count of one SRAM frame (R100, R101): 1 to 15, so that the size byte n - 1 is 0x00 to
0x0E (R109 a). -/
abbrev FrameCount (n : Nat) : Prop := 1 ≤ n ∧ n ≤ 15

/-- Whole blocks for one T_WRITE_SRAM (R101): 4 * n bytes, n a frame count. -/
abbrev WholeBlocks (d : List Byte) : Prop := d.length % 4 = 0 ∧ FrameCount (d.length / 4)

/-- The bounds of the formats. Every operand of a command is an encoding: a reserved one is answered
with a status (R112), so only the two SRAM frames have a bound of their own. -/
def wellFormed : Instr → Bool
  | .tReadSram _ n => decide (FrameCount n)
  | .tWriteSram _ d => decide (WholeBlocks d)
  | _ => true

/-- The five command codes are pairwise different, so that a request's code tells its frame. R5
leaves the codes open; its defaults are different. -/
abbrev Cfg.CodesDistinct (c : Cfg) : Prop :=
  [c.ccSelect, c.ccReadConfig, c.ccWriteConfig, c.ccReadSram, c.ccWriteSram].Nodup

/-- A UID that an inventory can have returned (R10): 1 to 16 bytes. -/
abbrev UidBytes (u : List Byte) : Prop := 1 ≤ u.length ∧ u.length ≤ 16

end Sys2Proof
end

