-- ==== Sys2Proof/Decode.lean ====
section
/-! DEFINITION. The encodings of 30_encoding.md: the decoder, total and rejecting by name, then the
encoder. Bits are numbered as R90 numbers them: bit 51 is the top of the command word. -/

namespace Sys2Proof

/-- The five formats of the opcode table. -/
inductive Format where
  | cmd52 | state3 | flags8 | feOpts9 | tframe
  deriving DecidableEq, Repr

/-- A word of one of the five formats. -/
inductive Code where
  /-- A 52-bit command word (R90). -/
  | cmd (w : BitVec 52)
  /-- A STATE code, the word TICK dispatches on (R105, R190). -/
  | state (w : BitVec 3)
  /-- A request-flags byte (R95). -/
  | flags (w : Byte)
  /-- An option vector (R96). -/
  | opts (w : BitVec 9)
  /-- A transport request (R97). -/
  | frame (r : Request)
  deriving DecidableEq, Repr

/-- Why a word is no instruction. -/
inductive DecodeError where
  /-- Bit 7 of a flags byte is RFU and never produced as 1 (R95, R112). -/
  | rfuBitSet
  /-- The command code is none of the five of R5. -/
  | unknownCommandCode
  /-- The flags byte is not the one R98 to R102 give the frame. -/
  | wrongFrameFlags
  /-- The payload has not the length R108 gives the frame. -/
  | wrongPayloadLength
  /-- The size byte n - 1 is above 0x0E (R109 a). -/
  | sizeByteAbove14
  deriving DecidableEq, Repr

def Code.format : Code → Format
  | .cmd _ => .cmd52
  | .state _ => .state3
  | .flags _ => .flags8
  | .opts _ => .feOpts9
  | .frame _ => .tframe

/-- The format of an instruction's row in the opcode table. -/
def Instr.format : Instr → Format
  | .tick | .readBlock _ | .readByte _ _ | .readRegisterBit _ | .readConfigBit _
  | .writeBlock _ _ | .mbxRead _ | .mbxWrite | .discover | .select | .establish
  | .dataDirection | .reservedOp _ => .cmd52
  | .hInit | .hTriggerEnergyHarvest | .hWaitI2cToNfc | .hWaitNfcToI2c | .hFatal
  | .hFatalDefault57 _ | .hFatalDefault6 => .state3
  | .flags .. => .flags8
  | .encodeFlags _ => .feOpts9
  | .tReadConfig _ | .tWriteConfig _ _ | .tReadSram _ _ | .tWriteSram _ _ | .tSelect
  | .tInventory => .tframe

/-- Command words (R90, R91, R92): total, since every op code is a row. Operand fields an operation
does not use are dropped, whatever they hold. -/
def decodeCmd (w : BitVec 52) : Instr :=
  let op := w.extractLsb' 48 4
  let a := w.extractLsb' 40 8
  let b := w.extractLsb' 32 8
  let v := w.extractLsb' 0 32
  match op.toNat with
  | 0x0 => .tick
  | 0x1 => .readBlock a
  | 0x2 => .readByte a b
  | 0x3 => .readRegisterBit a
  | 0x4 => .readConfigBit a
  | 0x5 => .writeBlock a v
  | 0x6 => .mbxRead b
  | 0x7 => .mbxWrite
  | 0x8 => .discover
  | 0x9 => .select
  | 0xA => .establish
  | 0xB => .dataDirection
  | _ => .reservedOp (op.extractLsb' 0 2)

/-- STATE codes (R105): total, 5 to 7 are the defensive default of R197. -/
def decodeState (c : BitVec 3) : Instr :=
  match c.toNat with
  | 0 => .hInit
  | 1 => .hTriggerEnergyHarvest
  | 2 => .hWaitI2cToNfc
  | 3 => .hWaitNfcToI2c
  | 4 => .hFatal
  | 6 => .hFatalDefault6
  | _ => .hFatalDefault57 (c.getLsbD 1)

/-- A request-flags byte (R95). -/
def decodeFlags (b : Byte) : Except DecodeError Instr :=
  if b.getLsbD 7 then .error .rfuBitSet
  else .ok (.flags (b.getLsbD 6) (b.getLsbD 5) (b.getLsbD 4) (b.getLsbD 3) (b.getLsbD 2)
    (b.getLsbD 1) (b.getLsbD 0))

/-- An option vector (R96): every vector is valid. -/
def decodeOptions (v : BitVec 9) : Instr := .encodeFlags (Options.ofBits v)

/-- The 32-bit value of the four data bytes of a T_WRITE_CONFIG, least significant first (R99). -/
def valueOfBytes (b0 b1 b2 b3 : Byte) : BitVec 32 := b3 ++ b2 ++ b1 ++ b0

/-- The payload of a tunneled frame, by its command code (R98 to R101). A receiver tells the length
of a T_WRITE_SRAM from its size byte (R108). -/
def decodeTunneled (c : Cfg) (cc : Byte) (p : List Byte) : Except DecodeError Instr :=
  if cc = c.ccReadConfig then
    match p with
    | [a] => .ok (.tReadConfig a)
    | _ => .error .wrongPayloadLength
  else if cc = c.ccWriteConfig then
    match p with
    | [a, b0, b1, b2, b3] => .ok (.tWriteConfig a (valueOfBytes b0 b1 b2 b3))
    | _ => .error .wrongPayloadLength
  else if cc = c.ccReadSram then
    match p with
    | [a, sz] => if sz.toNat ≤ 14 then .ok (.tReadSram a (sz.toNat + 1)) else .error .sizeByteAbove14
    | _ => .error .wrongPayloadLength
  else if cc = c.ccWriteSram then
    match p with
    | a :: sz :: d =>
      if 14 < sz.toNat then .error .sizeByteAbove14
      else if d.length = 4 * (sz.toNat + 1) then .ok (.tWriteSram a d)
      else .error .wrongPayloadLength
    | _ => .error .wrongPayloadLength
  else .error .unknownCommandCode

/-- A transport request (R97 to R103), told by its command code. -/
def decodeFrame (c : Cfg) : Request → Except DecodeError Instr
  | .inventory => .ok .tInventory
  | .issue flags cc p =>
    if cc = c.ccSelect then
      if flags ≠ Machine.selectFlags c then .error .wrongFrameFlags
      else if UidBytes p then .ok .tSelect
      else .error .wrongPayloadLength
    else
      match decodeTunneled c cc p with
      | .error e => .error e
      | .ok i => if flags ≠ Machine.tunnelFlags c then .error .wrongFrameFlags else .ok i

/-- The decoder, on words of every format. -/
def decode (c : Cfg) : Code → Except DecodeError Instr
  | .cmd w => .ok (decodeCmd w)
  | .state w => .ok (decodeState w)
  | .flags w => decodeFlags w
  | .opts w => .ok (decodeOptions w)
  | .frame r => decodeFrame c r

/-- A command word from its fields (R90): `op[3:0] ‖ a[7:0] ‖ b[7:0] ‖ w[31:0]`. -/
def commandWord (op : BitVec 4) (a b : Byte) (w : BitVec 32) : BitVec 52 := op ++ a ++ b ++ w

/-- Byte offset k of the four bytes of a 32-bit value, least significant first (R61). -/
def valueByte (v : BitVec 32) (k : Nat) : Byte := v.extractLsb' (8 * k) 8

/-- The size byte of an SRAM frame of n blocks (R109 a): n - 1. -/
def sizeByte (n : Nat) : Byte := BitVec.ofNat 8 (n - 1)

/-- The request of a T_READ_CONFIG (R98). -/
def readConfigRequest (c : Cfg) (a : Byte) : Request :=
  .issue (Machine.tunnelFlags c) c.ccReadConfig [a]

/-- The request of a T_WRITE_CONFIG (R99). -/
def writeConfigRequest (c : Cfg) (a : Byte) (v : BitVec 32) : Request :=
  .issue (Machine.tunnelFlags c) c.ccWriteConfig
    [a, valueByte v 0, valueByte v 1, valueByte v 2, valueByte v 3]

/-- The request of a T_READ_SRAM (R100). -/
def readSramRequest (c : Cfg) (a : Byte) (n : Nat) : Request :=
  .issue (Machine.tunnelFlags c) c.ccReadSram [a, sizeByte n]

/-- The request of a T_WRITE_SRAM (R101). -/
def writeSramRequest (c : Cfg) (a : Byte) (d : List Byte) : Request :=
  .issue (Machine.tunnelFlags c) c.ccWriteSram (a :: sizeByte (d.length / 4) :: d)

/-- The request of a T_SELECT (R102), `uid` the UID of the session. -/
def selectRequest (c : Cfg) (uid : List Byte) : Request :=
  .issue (Machine.selectFlags c) c.ccSelect uid

/-- The encoder: the word of an instruction, unused operand fields 0. A frame's word depends on the
configuration, and T_SELECT's on the UID of the session beside it (R97, R102). -/
def encode (c : Cfg) (uid : List Byte) : Instr → Code
  | .tick => .cmd (commandWord 0x0#4 0 0 0)
  | .readBlock a => .cmd (commandWord 0x1#4 a 0 0)
  | .readByte a b => .cmd (commandWord 0x2#4 a b 0)
  | .readRegisterBit a => .cmd (commandWord 0x3#4 a 0 0)
  | .readConfigBit a => .cmd (commandWord 0x4#4 a 0 0)
  | .writeBlock a w => .cmd (commandWord 0x5#4 a 0 w)
  | .mbxRead b => .cmd (commandWord 0x6#4 0 b 0)
  | .mbxWrite => .cmd (commandWord 0x7#4 0 0 0)
  | .discover => .cmd (commandWord 0x8#4 0 0 0)
  | .select => .cmd (commandWord 0x9#4 0 0 0)
  | .establish => .cmd (commandWord 0xA#4 0 0 0)
  | .dataDirection => .cmd (commandWord 0xB#4 0 0 0)
  | .reservedOp oo => .cmd (commandWord (0b11#2 ++ oo) 0 0 0)
  | .hInit => .state 0#3
  | .hTriggerEnergyHarvest => .state 1#3
  | .hWaitI2cToNfc => .state 2#3
  | .hWaitNfcToI2c => .state 3#3
  | .hFatal => .state 4#3
  | .hFatalDefault57 x => .state (1#1 ++ BitVec.ofBool x ++ 1#1)
  | .hFatalDefault6 => .state 6#3
  | .flags o s a p i h d =>
    .flags (BitVec.ofBool false ++ BitVec.ofBool o ++ BitVec.ofBool s ++ BitVec.ofBool a ++
      BitVec.ofBool p ++ BitVec.ofBool i ++ BitVec.ofBool h ++ BitVec.ofBool d)
  | .encodeFlags o => .opts o.toBits
  | .tReadConfig a => .frame (readConfigRequest c a)
  | .tWriteConfig a v => .frame (writeConfigRequest c a v)
  | .tReadSram a n => .frame (readSramRequest c a n)
  | .tWriteSram a d => .frame (writeSramRequest c a d)
  | .tSelect => .frame (selectRequest c uid)
  | .tInventory => .frame .inventory

/-- The word of a row of the opcode table that has bits: nbits is the row's width, in whole bytes or
as it is. A byte below 8 is a STATE code and any other byte a flags byte (log entry 13). -/
def tableCode (nbits w : Nat) : Option Code :=
  if nbits = 52 ∨ nbits = 56 then
    if w < 2 ^ 52 then some (.cmd (BitVec.ofNat 52 w)) else none
  else if nbits = 3 then
    if w < 8 then some (.state (BitVec.ofNat 3 w)) else none
  else if nbits = 8 then
    if w < 8 then some (.state (BitVec.ofNat 3 w))
    else if w < 256 then some (.flags (BitVec.ofNat 8 w)) else none
  else if nbits = 9 ∨ nbits = 16 then
    if w < 512 then some (.opts (BitVec.ofNat 9 w)) else none
  else none

/-- The instruction the decoder reads from a row's bits. -/
def decodeTableWord (nbits w : Nat) : Option Instr :=
  match tableCode nbits w with
  | none => none
  | some code =>
    match decode Cfg.defaults code with
    | .ok i => some i
    | .error _ => none

end Sys2Proof
end

