-- ==== Sys2Proof/Machine/State.lean ====
section
/-! DEFINITION. The machine's state as plain data (10_state.md), its reset value, and the reasons a
step can stop. -/

namespace Sys2Proof.Machine

/-- The error kinds of 60_exceptions.md R220, Ok apart. -/
inductive Kind where
  | noTagFound
  | selectFailure
  | readError
  | headerReadError
  | invalidOffset
  | invalidAddress
  | invalidConfiguration
  | timeout
  | fatal
  | writeError
  | invalidLength
  | invalidOp
  deriving DecidableEq, Repr

/-- The results of the direction decode (R106). -/
inductive Direction where
  | unknown
  | i2cNfc
  | nfcI2c
  | locked
  deriving DecidableEq, Repr

/-- The block's own registers, "these and no others" (R20). -/
structure Regs where
  /-- STATE: the sequencing register (R21). -/
  state : BitVec 3
  /-- SESS_UID: UID_MAX_BYTES bytes (R22). -/
  sessUid : Vector Byte 16
  /-- SESS_UID_LEN: number of valid bytes of SESS_UID; 0 means no UID (R22). -/
  sessUidLen : BitVec 5
  /-- SESS_SELECTED (R22). -/
  sessSelected : Bool
  /-- WDG_T0: when the watchdog interval began (R23). -/
  wdgT0 : BitVec 32
  /-- HALT: the block has terminated (R24). -/
  halt : Bool
  /-- EXIT_CAUSE: the kind that caused HALT, 0 while HALT = 0 (R24). -/
  exitCause : BitVec 4
  /-- LAST_ERR: the kind last recorded during the current or last command (R25). -/
  lastErr : BitVec 4
  /-- BLK: the last block fetched by a successful READ_BLOCK (R26). -/
  blk : BitVec 32
  /-- RX_HDR: the length header of the last successful probe read (R27). -/
  rxHdr : Byte
  /-- RXBUF: the payload of the last MBX_READ that returned Ok (R27). -/
  rxBuf : Vector Byte 248
  /-- RX_LEN: valid bytes in RXBUF (R27). -/
  rxLen : Byte
  /-- RX_COMPLETE: every chunk of that read came back whole (R27). -/
  rxComplete : Bool
  /-- RX_VALID: the RX registers have been written since reset (R27). -/
  rxValid : Bool
  /-- DIR: the result of the last DATA_DIRECTION that returned Ok (R28). -/
  dir : BitVec 2
  deriving DecidableEq, Repr

/-- The host's inputs, sampled when a command is accepted and held to its response (R29, R252).
FE_OPTS, which no command samples, stands in `State.feOpts`. -/
structure Inputs where
  /-- NOW: free-running time. -/
  now : BitVec 32
  /-- TX_NBLK: number of blocks of the outbound payload. -/
  txNblk : Byte
  /-- TX_DATA: the outbound payload. -/
  txData : Vector Byte 60
  /-- EH_BOOTSTRAP_EN. -/
  ehBootstrapEn : Bool
  /-- LOCK_CHECK_EN. -/
  lockCheckEn : Bool
  deriving DecidableEq, Repr

/-- What the host does next (R90, R96, R250): the model's own record of the host (log entry 5). -/
inductive HostEvent where
  /-- A command word on the command port, with the inputs it is accepted with. -/
  | command (inputs : Inputs) (word : BitVec 52)
  /-- A new option vector on the FE_OPTS port. -/
  | options (opts : BitVec 9)
  /-- The reset input is applied. -/
  | reset
  deriving DecidableEq, Repr

/-- What the last transport frame delivered to the operation that emitted it: the result of R11's
primitives, of the select test of R181, or of `TInventory` (log entry 11). -/
inductive FrameValue where
  /-- No frame has been emitted. -/
  | nothing
  /-- `MemRead`: Empty or Bytes(s). -/
  | read (r : Option (List Byte))
  /-- `MemWrite`: true for success. -/
  | wrote (ok : Bool)
  /-- T_SELECT: exactly one frame, and it is [0x00]. -/
  | selected (ok : Bool)
  /-- `TInventory`: None or Uid(u). -/
  | found (u : Option (List Byte))
  deriving DecidableEq, Repr

/-- The transport as the block sees it (R42, R73). -/
structure Env where
  /-- The answers lined up for `TIssue` calls, the next one first; past its end the answer is free. -/
  issues : List IssueAnswer
  /-- The answers lined up for `TInventory` calls. -/
  invs : List InvAnswer
  /-- The number (from 0) of the call that never returns, if there is one (U2; log entry 3). -/
  hangAt : Option Nat
  /-- The calls made, in order, each with its answer (R72). -/
  history : List Call
  /-- What the last frame delivered. -/
  value : FrameValue
  deriving DecidableEq, Repr

/-- A response (R90). -/
structure Response where
  /-- rsp_status. -/
  status : BitVec 4
  /-- rsp_data. -/
  data : BitVec 32
  deriving DecidableEq, Repr

/-- The machine. -/
structure State where
  /-- The block's own registers (R20). -/
  regs : Regs
  /-- The inputs held for the command that runs (R29). -/
  inp : Inputs
  /-- FE_OPTS, the input of the combinational FLAGENC (R29, R96). -/
  feOpts : BitVec 9
  /-- The configuration (R5); constant. -/
  cfg : Cfg
  /-- What the host will present, the next first. -/
  pending : List HostEvent
  /-- The transport and the history of its calls. -/
  env : Env
  /-- The response port: the last response since reset (R90). -/
  rsp : Option Response
  /-- The LOG port: the kinds emitted, in order (R232). -/
  log : List Kind
  deriving DecidableEq, Repr

/-- Why a step of the model stops. -/
inductive Fault where
  /-- Raised by any instruction that makes a transport call which never returns: the block hangs in
  the command (R203, U2 "stuck"). Safe: the model stops where the hardware never goes on. -/
  | transportHang
  deriving DecidableEq, Repr

/-- Why the model gives an instruction no meaning. -/
inductive Refusal where
  /-- Raised by a dispatch arm without a meaning; no arm of this model raises it. Safe. -/
  | notModelled (mnemonic : String)
  /-- Raised by T_READ_SRAM and T_WRITE_SRAM outside the bounds R100 and R101 give the frame: no such
  frame exists, no decoder yields it and no operation emits it (log entry 11). Safe. -/
  | malformedFrame
  deriving DecidableEq, Repr

/-- The registers after reset (R43, R250). R43 leaves SESS_UID, WDG_T0, BLK, RX_HDR, RXBUF, RX_LEN
and RX_COMPLETE unspecified: DESIGN CHOICE zero, unsafe (log entry 1). -/
def Regs.reset : Regs where
  state := 0#3
  sessUid := Vector.replicate 16 0#8
  sessUidLen := 0#5
  sessSelected := false
  wdgT0 := 0#32
  halt := false
  exitCause := 0#4
  lastErr := 0#4
  blk := 0#32
  rxHdr := 0#8
  rxBuf := Vector.replicate 248 0#8
  rxLen := 0#8
  rxComplete := false
  rxValid := false
  dir := 0#2

/-- The host's inputs before it has presented any: R5's defaults for the two enables; NOW and the
outbound payload DESIGN CHOICE zero, unsafe (log entry 6). -/
def Inputs.initial : Inputs where
  now := 0#32
  txNblk := 0#8
  txData := Vector.replicate 60 0#8
  ehBootstrapEn := true
  lockCheckEn := false

/-- The transport before any call: nothing lined up, so every answer is free. -/
def Env.initial : Env where
  issues := []
  invs := []
  hangAt := none
  history := []
  value := .nothing

/-- The machine right after reset (R43, R250): idle, no call made, no response given. -/
def State.reset : State where
  regs := Regs.reset
  inp := Inputs.initial
  feOpts := 0#9
  cfg := Cfg.defaults
  pending := []
  env := Env.initial
  rsp := none
  log := []

end Sys2Proof.Machine
end

