-- ==== Sys2Proof/Machine/Operands.lean ====
section
/-! DEFINITION. The constants of 00_scope.md R5 marked "fixed", the codes of R105, R106 and R220, the
descriptor and field tables of 10_state.md, and the operand forms: addresses, byte offsets, field
identifiers, block values, the mailbox's block counts and chunk schedule. -/

namespace Sys2Proof.Machine

/-! ### Constants and codes -/

/-- WDG_LIMIT: 5 seconds in milliseconds (R5, R200). -/
def wdgLimit : Nat := 5000

/-- CHUNK_MAX_BLOCKS: most blocks of one transport read (R65, R166). -/
def chunkMaxBlocks : Nat := 15

/-- TX_MAX_BLOCKS: most blocks of one mailbox write (R164). -/
def txMaxBlocks : Nat := 15

/-- MBX_PAYLOAD_MAX_BLOCKS: blocks 0x01 to 0x3E (R5, R162). -/
def mbxPayloadMaxBlocks : Nat := 62

/-- MBX_HDR_ADDR: the block that holds the length header (R69). -/
def mbxHdrAddr : Byte := 0x00#8

/-- MBX_TERM_ADDR: the terminator block (R69). -/
def mbxTermAddr : Byte := 0x3F#8

/-- MBX_PAYLOAD_FIRST: the first block a chunk read fetches (R109 b). -/
def mbxPayloadFirst : Nat := 0x01

/-- TERMINATOR: FF FF FF FF (R164). -/
def terminator : List Byte := [0xFF#8, 0xFF#8, 0xFF#8, 0xFF#8]

/-- SELECT_OK: the one byte of a successful select's one frame (R102). -/
def selectOk : List Byte := [0x00#8]

/-- State codes (R105). -/
def stInit : BitVec 3 := 0#3
/-- State codes (R105). -/
def stTriggerEnergyHarvest : BitVec 3 := 1#3
/-- State codes (R105). -/
def stWaitI2cToNfc : BitVec 3 := 2#3
/-- State codes (R105). -/
def stWaitNfcToI2c : BitVec 3 := 3#3
/-- State codes (R105). -/
def stFatal : BitVec 3 := 4#3

/-- Error kind codes (R220). -/
def Kind.code : Kind → BitVec 4
  | .noTagFound => 1#4
  | .selectFailure => 2#4
  | .readError => 3#4
  | .headerReadError => 4#4
  | .invalidOffset => 5#4
  | .invalidAddress => 6#4
  | .invalidConfiguration => 7#4
  | .timeout => 8#4
  | .fatal => 9#4
  | .writeError => 10#4
  | .invalidLength => 11#4
  | .invalidOp => 12#4

/-- Direction codes (R106). -/
def Direction.code : Direction → BitVec 2
  | .unknown => 0#2
  | .i2cNfc => 1#2
  | .nfcI2c => 2#2
  | .locked => 3#2

/-! ### Blocks and bytes (20_memory.md) -/

/-- `blockval(B) = B[3] ‖ B[2] ‖ B[1] ‖ B[0]` (R62). -/
def blockval (b : List Byte) : BitVec 32 := b.getD 3 0 ++ b.getD 2 0 ++ b.getD 1 0 ++ b.getD 0 0

/-- The byte at byte offset k of a fetched block: the k-th of its bytes on the wire (R61). -/
def blockByte (b : List Byte) (k : Nat) : Byte := b.getD k 0

/-- The four bytes of a CFG write, least significant first (R61, R109 d). -/
def bytesOfValue (v : BitVec 32) : List Byte :=
  [v.extractLsb' 0 8, v.extractLsb' 8 8, v.extractLsb' 16 8, v.extractLsb' 24 8]

/-- VALID_CFG = {0x00..0x3F} ∪ {0xA0..0xA8} (R70). -/
def validCfg (a : Byte) : Bool := a.toNat ≤ 0x3F || (0xA0 ≤ a.toNat && a.toNat ≤ 0xA8)

/-- `buf[0 : len(u)] <- u`: n bytes, those past u given by `past` (R162, R180; log entry 17). -/
def overlay {n : Nat} (u : List Byte) (past : Nat → Byte) : Vector Byte n :=
  ⟨⟨(List.range n).map fun i => u.getD i (past i)⟩, by simp⟩

/-! ### Descriptors and fields (10_state.md R33, R40) -/

/-- The descriptors of R33. -/
inductive Descriptor where
  | status0Reg | status1Reg | config0Reg | config1Reg | ehConfigReg | edConfigReg | sramProtConfig
  deriving DecidableEq, Repr

/-- Which table a descriptor stands in (R33). -/
inductive DescTable where
  | register | config
  deriving DecidableEq, Repr

/-- A descriptor's table, block address and byte offset (R33). -/
def Descriptor.place : Descriptor → DescTable × Byte × Nat
  | .status0Reg => (.register, 0xA0#8, 0)
  | .status1Reg => (.register, 0xA0#8, 1)
  | .config0Reg => (.register, 0xA1#8, 0)
  | .config1Reg => (.register, 0xA1#8, 1)
  | .ehConfigReg => (.register, 0xA7#8, 0)
  | .edConfigReg => (.register, 0xA8#8, 0)
  | .sramProtConfig => (.config, 0x3F#8, 1)

/-- The named fields of R40. -/
inductive Field where
  | sramDataRdy | i2cIfLocked | nfcIfLocked | ptTransferDir | sramEnabled | ehLoadOk | ehTrigger
  | ehEnable | edConfig | sramProt
  deriving DecidableEq, Repr

/-- The descriptor a field belongs to (R40). -/
def Field.descriptor : Field → Descriptor
  | .sramDataRdy => .status0Reg
  | .i2cIfLocked | .nfcIfLocked => .status1Reg
  | .ptTransferDir | .sramEnabled => .config1Reg
  | .ehLoadOk | .ehTrigger | .ehEnable => .ehConfigReg
  | .edConfig => .edConfigReg
  | .sramProt => .sramProtConfig

/-- A field's mask (R33, R40); SRAM_PROT's is a parameter. -/
def Field.mask (c : Cfg) : Field → Byte
  | .sramDataRdy => 0x20#8
  | .i2cIfLocked => 0x02#8
  | .nfcIfLocked => 0x01#8
  | .ptTransferDir => 0x01#8
  | .sramEnabled => 0x02#8
  | .ehLoadOk => 0x80#8
  | .ehTrigger => 0x08#8
  | .ehEnable => 0x01#8
  | .edConfig => 0x0F#8
  | .sramProt => c.sramProtMask

/-- A field's identifier in its own table (R40). -/
def Field.id : Field → Byte
  | .sramDataRdy => 0#8
  | .i2cIfLocked => 1#8
  | .nfcIfLocked => 2#8
  | .ptTransferDir => 3#8
  | .sramEnabled => 4#8
  | .ehLoadOk => 5#8
  | .ehTrigger => 6#8
  | .ehEnable => 7#8
  | .edConfig => 8#8
  | .sramProt => 0#8

/-- The triple (address, offset, mask) of a field (R40). -/
def Field.row (c : Cfg) (f : Field) : Byte × Nat × Byte :=
  (f.descriptor.place.2.1, f.descriptor.place.2.2, f.mask c)

/-- The register table by identifier (R40); the operand is a whole byte, so a high nibble that is
not 0 is reserved as well (R91). -/
def registerField (a : Byte) : Option Field :=
  match a.toNat with
  | 0 => some .sramDataRdy
  | 1 => some .i2cIfLocked
  | 2 => some .nfcIfLocked
  | 3 => some .ptTransferDir
  | 4 => some .sramEnabled
  | 5 => some .ehLoadOk
  | 6 => some .ehTrigger
  | 7 => some .ehEnable
  | 8 => some .edConfig
  | _ => none

/-- The config table by identifier (R40): one row. -/
def configField (a : Byte) : Option Field :=
  match a.toNat with
  | 0 => some .sramProt
  | _ => none

/-- `field_reg(id)` (R40). -/
def fieldReg (c : Cfg) (a : Byte) : Option (Byte × Nat × Byte) := (registerField a).map (Field.row c)

/-- `field_cfg(id)` (R40). -/
def fieldCfg (c : Cfg) (a : Byte) : Option (Byte × Nat × Byte) := (configField a).map (Field.row c)

/-! ### The mailbox's counts and schedule (42_mailbox_channel.md) -/

/-- `blocks_of_len(L) = ceil(L / 4)`, on unbounded naturals (R160). -/
def blocksOfLen (l : Byte) : Nat := (l.toNat + 3) / 4

/-- The loop of R161 from `fetched` blocks on; `fuel` bounds the reads, of which each fetches at
least one block. -/
def scheduleFrom (total : Nat) : Nat → Nat → List (Byte × Nat)
  | 0, _ => []
  | fuel + 1, fetched =>
    if fetched < total then
      let n := min chunkMaxBlocks (total - fetched)
      (BitVec.ofNat 8 (mbxPayloadFirst + fetched), n) :: scheduleFrom total fuel (fetched + n)
    else []

/-- `schedule(N)`: the (address, count) pairs of the chunk reads, in order (R161). -/
def schedule (total : Nat) : List (Byte × Nat) := scheduleFrom total total 0

/-- The block count of a mailbox read: the operand when present, else the header's (R162). -/
def mailboxBlocks (tb l : Byte) : Nat := if tb ≠ 0 then tb.toNat else blocksOfLen l

/-! ### Direction -/

/-- `decode_dir(pt, ed)` (R192). -/
def decodeDir (pt ed : Byte) : Direction :=
  if pt = 0x0#8 ∧ ed = 0x3#8 then .i2cNfc
  else if pt = 0x1#8 ∧ ed = 0x4#8 then .nfcI2c
  else .unknown

/-- The lock-bit precondition (R191): a known direction whose pattern STATUS byte 1 AND 0x03 does not
match is Locked. -/
def lockDir (c : Cfg) (d : Direction) (status1 : Byte) : Direction :=
  let lk := status1.extractLsb' 0 2
  if d = .i2cNfc ∧ lk ≠ c.lockPatternI2cNfc then .locked
  else if d = .nfcI2c ∧ lk ≠ c.lockPatternNfcI2c then .locked
  else d

/-! ### Response data (R94) -/

/-- TICK: STATE in bits 2:0, HALT in bit 8. -/
def tickData (st : BitVec 3) (halt : Bool) : BitVec 32 :=
  st.zeroExtend 32 ||| (if halt then 0x100#32 else 0#32)

/-- MBX_READ: RX_LEN in bits 7:0, RX_COMPLETE in bit 8, RX_HDR in bits 23:16. -/
def mbxData (len : Byte) (complete : Bool) (hdr : Byte) : BitVec 32 :=
  0#8 ++ hdr ++ (0#7 ++ BitVec.ofBool complete) ++ len

end Sys2Proof.Machine
end

