-- ==== Sys2Proof/Machine/Ops.lean ====
section
/-! DEFINITION. The named operations the meanings share: register writes, `record`, the start and the
answer of a command, taking the halt, reset, the transport primitives and the frames of R98 to R103. -/

namespace Sys2Proof.Machine

/-- `Ok(value) | Fail(K)` (R9). -/
inductive Result (α : Type) where
  | ok (v : α)
  | fail (k : Kind)
  deriving DecidableEq, Repr

/-! ### Register writes -/

def setState (v : BitVec 3) (s : State) : State := { s with regs := { s.regs with state := v } }

def setLastErr (v : BitVec 4) (s : State) : State := { s with regs := { s.regs with lastErr := v } }

def setWdgT0 (v : BitVec 32) (s : State) : State := { s with regs := { s.regs with wdgT0 := v } }

def setBlk (v : BitVec 32) (s : State) : State := { s with regs := { s.regs with blk := v } }

def setDir (v : BitVec 2) (s : State) : State := { s with regs := { s.regs with dir := v } }

def setExitCause (v : BitVec 4) (s : State) : State :=
  { s with regs := { s.regs with exitCause := v } }

def setHalt (s : State) : State := { s with regs := { s.regs with halt := true } }

/-- The session becomes absent: SESS_UID_LEN <- 0, SESS_SELECTED <- 0 (R22, R180, R181). -/
def clearSession (s : State) : State :=
  { s with regs := { s.regs with sessUidLen := 0#5, sessSelected := false } }

/-- The session becomes discovered with UID u (R180). -/
def setDiscovered (u : List Byte) (s : State) : State :=
  { s with regs := { s.regs with
      sessUid := overlay u (Config.freeByte s.env.history.length)
      sessUidLen := BitVec.ofNat 5 u.length
      sessSelected := false } }

/-- The session becomes selected (R181). -/
def setSelected (s : State) : State := { s with regs := { s.regs with sessSelected := true } }

/-- The five RX registers, written together (R27, R162). -/
def setRx (hdr : Byte) (payload : List Byte) (complete : Bool) (s : State) : State :=
  { s with regs := { s.regs with
      rxHdr := hdr
      rxBuf := overlay payload (Config.freeByte s.env.history.length)
      rxLen := BitVec.ofNat 8 payload.length
      rxComplete := complete
      rxValid := true } }

def setFeOpts (v : BitVec 9) (s : State) : State := { s with feOpts := v }

/-- The UID bytes of the session: SESS_UID[0 : SESS_UID_LEN] (R102). -/
def State.uid (s : State) : List Byte := s.regs.sessUid.toList.take s.regs.sessUidLen.toNat

/-- FE_FLAGS: the combinational output of FLAGENC (R96, R130). -/
def State.feFlags (s : State) : Byte := encodeFlagBits s.feOpts

/-! ### Recording, answering, halting -/

/-- `record(K)`: LAST_ERR <- code(K) and one event K on the LOG port (R12, R232). -/
def record (k : Kind) (s : State) : State :=
  { setLastErr k.code s with log := s.log ++ [k] }

/-- The response of a command (R90). -/
def respond (status : BitVec 4) (data : BitVec 32) (s : State) : State :=
  { s with rsp := some { status := status, data := data } }

/-- The response whose status is LAST_ERR at the command's end (R25): every command's but
WRITE_BLOCK's. -/
def respondErr (data : BitVec 32) (s : State) : State := respond s.regs.lastErr data s

/-- The response of an operation's result: the value laid out by `layout` on Ok, 0 on Fail (R90, R94). -/
def answer {α : Type} (layout : α → BitVec 32) (r : Result α × State) : State :=
  match r with
  | (.ok v, s) => respondErr (layout v) s
  | (.fail _, s) => respondErr 0#32 s

/-- The next state of the machine, or the hang of a transport call that never returns (R203, U2):
`hangAt = some k` says that call number k does not return, so nothing after it happens. -/
def complete (s t : State) : Host.Outcome State Fault Refusal :=
  match s.env.hangAt with
  | none => .next t
  | some k => if t.env.history.length ≤ k then .next t else .fault .transportHang

/-- Any command of a halted block (R201, R93): LAST_ERR <- 9, one LOG event Fatal, status 9, data
0x100 | STATE; nothing else. -/
def answerHalted (s : State) : State :=
  respond Kind.fatal.code (tickData s.regs.state true) (record .fatal s)

/-- A command (R4, R12, R225): the halted answer when HALT = 1, before everything; else LAST_ERR <- 0
and the command's own body. -/
def command (body : State → State) (s : State) : Host.Outcome State Fault Refusal :=
  complete s (if s.regs.halt then answerHalted s else body (setLastErr 0#4 s))

/-- TAKING THE HALT, the block's one trap entry (R223): record(K), HALT <- 1, EXIT_CAUSE <- code(K)
(for Fatal only if it was 0), STATE <- Fatal. Nothing is saved and control goes nowhere. -/
def takeHalt (k : Kind) (s : State) : State :=
  setState stFatal
    (if k = .fatal ∧ s.regs.exitCause ≠ 0#4 then setHalt (record k s)
     else setExitCause k.code (setHalt (record k s)))

/-- Reset, the only way out of HALT (R227, R250): every register takes its reset value and the block
is idle; the tag, the host's inputs and the records of the past are not the block's registers (log
entry 14). -/
def applyReset (s : State) : State := { s with regs := Regs.reset, rsp := none }

/-! ### The transport port (R10) -/

/-- The bytes of an inventory answer: none, or 1 to 16 bytes (R10; log entry 4). -/
def uidOfAnswer : InvAnswer → Option (List Byte)
  | .noTag => none
  | .uid first rest => some (first :: rest.take 15)

/-- The answer of the transport to the next `TIssue` call: the one lined up, else a free value (R73). -/
def nextIssue (s : State) : IssueAnswer :=
  match s.env.issues with
  | [] => Config.freeIssue s.env.history.length
  | r :: _ => r

/-- The answer to the next `TInventory` call. -/
def nextInventory (s : State) : InvAnswer :=
  match s.env.invs with
  | [] => Config.freeInventory s.env.history.length
  | r :: _ => r

/-- The state after one `TIssue` call that answered r and whose frame delivered v: the call joins the
history (R72) and its answer is used up. -/
def afterIssue (flags cc : Byte) (payload : List Byte) (r : IssueAnswer) (v : FrameValue)
    (s : State) : State :=
  { s with env := { s.env with
      issues := s.env.issues.tail
      history := s.env.history ++ [.issue flags cc payload r]
      value := v } }

/-- The state after one `TInventory` call that answered r. -/
def afterInventory (r : InvAnswer) (s : State) : State :=
  { s with env := { s.env with
      invs := s.env.invs.tail
      history := s.env.history ++ [.inventory r]
      value := .found (uidOfAnswer r) } }

/-- The test and the slice of `MemRead` (R11): the first frame, at least HDR_BYTES + len bytes long;
its header is skipped unexamined and what follows the payload is ignored (R97). -/
def readPayload (hdr len : Nat) : IssueAnswer → Option (List Byte)
  | .frames (f :: _) => if f.length < hdr + len then none else some ((f.drop hdr).take len)
  | _ => none

/-- The test of `MemWrite` (R11): at least one frame, of any content. -/
def writeOk : IssueAnswer → Bool
  | .frames (_ :: _) => true
  | _ => false

/-- The test of T_SELECT (R102, R181): exactly one frame, and it is exactly [0x00]. -/
def selectAccepted : IssueAnswer → Bool
  | .frames [f] => f == selectOk
  | _ => false

/-! ### The frames (R98 to R103): each makes exactly one transport call -/

/-- One `TIssue` call with request (flags, cc, payload); `f` reads its answer. -/
def issueFrame {α : Type} (flags cc : Byte) (payload : List Byte) (f : IssueAnswer → α)
    (value : α → FrameValue) (s : State) : α × State :=
  let r := nextIssue s
  (f r, afterIssue flags cc payload r (value (f r)) s)

/-- T_READ_CONFIG: `MemRead(CFG, a, 1)` (R11, R98). -/
def tReadConfig (a : Byte) (s : State) : Option (List Byte) × State :=
  issueFrame (tunnelFlags s.cfg) s.cfg.ccReadConfig [a] (readPayload s.cfg.hdrBytes 4) .read s

/-- T_WRITE_CONFIG: `MemWrite(CFG, a, 1, B)` with B the bytes of V, least significant first (R11, R99). -/
def tWriteConfig (a : Byte) (v : BitVec 32) (s : State) : Bool × State :=
  issueFrame (tunnelFlags s.cfg) s.cfg.ccWriteConfig (a :: bytesOfValue v) writeOk .wrote s

/-- T_READ_SRAM: `MemRead(SRAM, a, n)` (R11, R100). -/
def tReadSram (a : Byte) (n : Nat) (s : State) : Option (List Byte) × State :=
  issueFrame (tunnelFlags s.cfg) s.cfg.ccReadSram [a, sizeByte n]
    (readPayload s.cfg.hdrBytes (4 * n)) .read s

/-- T_WRITE_SRAM: `MemWrite(SRAM, a, n, D)`, n the blocks of D (R11, R101). -/
def tWriteSram (a : Byte) (d : List Byte) (s : State) : Bool × State :=
  issueFrame (tunnelFlags s.cfg) s.cfg.ccWriteSram (a :: sizeByte (d.length / 4) :: d)
    writeOk .wrote s

/-- T_SELECT: the UID of the session, exactly as discovery returned it (R102). -/
def tSelect (s : State) : Bool × State :=
  issueFrame (selectFlags s.cfg) s.cfg.ccSelect s.uid selectAccepted .selected s

/-- T_INVENTORY: one `TInventory` call (R103). -/
def tInventory (s : State) : Option (List Byte) × State :=
  let r := nextInventory s
  (uidOfAnswer r, afterInventory r s)

/-- A frame row of the table run on its own: what the frame does inside an operation. A halted block
makes no transport call (R24, R201; log entry 11). -/
def frameRow {α : Type} (f : State → α × State) (s : State) : Host.Outcome State Fault Refusal :=
  complete s (if s.regs.halt then s else (f s).2)

end Sys2Proof.Machine
end

