-- ==== Sys2Proof/Machine/Accessor.lean ====
section
/-! DEFINITION. The REGACC family (41_accessor.md): the register-mask extractor and config accessor. -/

namespace Sys2Proof.Machine

/-- READ_BLOCK (R140): the address check, one T_READ_CONFIG, BLK on success. -/
def readBlock (a : Byte) (s : State) : Result (List Byte) × State :=
  if validCfg a then
    match tReadConfig a s with
    | (none, s1) => (.fail .readError, record .readError s1)
    | (some b, s1) => (.ok b, setBlk (blockval b) s1)
  else (.fail .invalidAddress, record .invalidAddress s)

/-- READ_BYTE (R141): the offset is tested first, before the address and before any call (D39). -/
def readByte (a : Byte) (k : Nat) (s : State) : Result Byte × State :=
  if 3 < k then (.fail .invalidOffset, record .invalidOffset s)
  else
    match readBlock a s with
    | (.fail e, s1) => (.fail e, s1)
    | (.ok b, s1) => (.ok (blockByte b k), s1)

/-- The masked byte of a table row, not normalised (R142, R143); a reserved identifier is refused
before any call. -/
def readField (row : Option (Byte × Nat × Byte)) (s : State) : Result Byte × State :=
  match row with
  | none => (.fail .invalidAddress, record .invalidAddress s)
  | some (addr, off, mask) =>
    match readByte addr off s with
    | (.fail e, s1) => (.fail e, s1)
    | (.ok v, s1) => (.ok (v &&& mask), s1)

/-- READ_REGISTER_BIT (R142). -/
def readRegisterBit (a : Byte) (s : State) : Result Byte × State := readField (fieldReg s.cfg a) s

/-- READ_CONFIG_BIT (R143). -/
def readConfigBit (a : Byte) (s : State) : Result Byte × State := readField (fieldCfg s.cfg a) s

/-- WRITE_BLOCK (R144): fire and forget. A failed write is recorded and not raised. -/
def writeBlock (a : Byte) (v : BitVec 32) (s : State) : Result Unit × State :=
  if validCfg a then
    match tWriteConfig a v s with
    | (true, s1) => (.ok (), s1)
    | (false, s1) => (.ok (), record .writeError s1)
  else (.fail .invalidAddress, record .invalidAddress s)

/-- READ_BLOCK on the command port (R140, R94). -/
def execReadBlock (a : Byte) (s : State) : Host.Outcome State Fault Refusal :=
  command (fun s0 => answer blockval (readBlock a s0)) s

/-- READ_BYTE on the command port (R141, R94). -/
def execReadByte (a b : Byte) (s : State) : Host.Outcome State Fault Refusal :=
  command (fun s0 => answer (fun v => v.zeroExtend 32) (readByte a b.toNat s0)) s

/-- READ_REGISTER_BIT on the command port (R142, R94). -/
def execReadRegisterBit (a : Byte) (s : State) : Host.Outcome State Fault Refusal :=
  command (fun s0 => answer (fun v => v.zeroExtend 32) (readRegisterBit a s0)) s

/-- READ_CONFIG_BIT on the command port (R143, R94). -/
def execReadConfigBit (a : Byte) (s : State) : Host.Outcome State Fault Refusal :=
  command (fun s0 => answer (fun v => v.zeroExtend 32) (readConfigBit a s0)) s

/-- WRITE_BLOCK on the command port (R144): its status is 0 on Ok even when WriteError was recorded
(R25). -/
def execWriteBlock (a : Byte) (w : BitVec 32) (s : State) : Host.Outcome State Fault Refusal :=
  command
    (fun s0 =>
      match writeBlock a w s0 with
      | (.ok _, s1) => respond 0#4 0#32 s1
      | (.fail _, s1) => respondErr 0#32 s1) s

end Sys2Proof.Machine
end

