-- ==== Sys2Proof/Machine/Mailbox.lean ====
section
/-! DEFINITION. The MBXCH family (42_mailbox_channel.md): the mailbox channel and its chunked reads. -/

namespace Sys2Proof.Machine

/-- What a mailbox read hands its caller (R162): the payload, and whether every chunk came back whole. -/
structure MailboxPayload where
  bytes : List Byte
  complete : Bool
  deriving DecidableEq, Repr

/-- The chunk reads of a schedule, in order (R162): an empty chunk contributes 0 bytes and clears
`complete`, and the later chunks are still read at their scheduled addresses. -/
def readChunks : List (Byte × Nat) → State → MailboxPayload × State
  | [], s => (⟨[], true⟩, s)
  | (addr, n) :: rest, s =>
    match tReadSram addr n s with
    | (c, s1) =>
      match readChunks rest s1 with
      | (p, s2) =>
        match c with
        | none => (⟨p.bytes, false⟩, s2)
        | some bs => (⟨bs ++ p.bytes, p.complete⟩, s2)

/-- MBX_READ (R162): the operand check, the probe read, the block count, the chunks, the RX registers. -/
def mbxRead (tb : Byte) (s : State) : Result MailboxPayload × State :=
  if mbxPayloadMaxBlocks < tb.toNat then (.fail .invalidAddress, record .invalidAddress s)
  else
    match tReadSram mbxHdrAddr 1 s with
    | (none, s1) => (.fail .headerReadError, record .headerReadError s1)
    | (some p, s1) =>
      let l := blockByte p 0
      let n := mailboxBlocks tb l
      if mbxPayloadMaxBlocks < n then (.fail .readError, record .readError s1)
      else
        match readChunks (schedule n) s1 with
        | (m, s2) => (.ok m, setRx l m.bytes m.complete s2)

/-- MBX_WRITE (R164): the payload write, then, only if it succeeded, the terminator write. -/
def mbxWrite (s : State) : Result Unit × State :=
  let n := s.inp.txNblk.toNat
  if n = 0 ∨ txMaxBlocks < n then (.fail .invalidLength, record .invalidLength s)
  else
    match tWriteSram mbxHdrAddr (s.inp.txData.toList.take (4 * n)) s with
    | (false, s1) => (.fail .writeError, record .writeError s1)
    | (true, s1) =>
      match tWriteSram mbxTermAddr terminator s1 with
      | (false, s2) => (.fail .writeError, record .writeError s2)
      | (true, s2) => (.ok (), s2)

/-- MBX_READ on the command port (R162): the data word shows the RX registers the read wrote (R94). -/
def execMbxRead (b : Byte) (s : State) : Host.Outcome State Fault Refusal :=
  command
    (fun s0 =>
      match mbxRead b s0 with
      | (.ok _, s1) => respondErr (mbxData s1.regs.rxLen s1.regs.rxComplete s1.regs.rxHdr) s1
      | (.fail _, s1) => respondErr 0#32 s1) s

/-- MBX_WRITE on the command port (R164, R94). -/
def execMbxWrite (s : State) : Host.Outcome State Fault Refusal :=
  command (fun s0 => answer (fun _ => 0#32) (mbxWrite s0)) s

end Sys2Proof.Machine
end

