-- ==== Sys2Proof/Machine/Session.lean ====
section
/-! DEFINITION. The SESSION family (43_tag_session.md). -/

namespace Sys2Proof.Machine

/-- DISCOVER (R180): one inventory call; a UID makes the session discovered, None makes it absent. -/
def discover (s : State) : Result Unit × State :=
  match tInventory s with
  | (none, s1) => (.fail .noTagFound, record .noTagFound (clearSession s1))
  | (some u, s1) => (.ok (), setDiscovered u s1)

/-- SELECT (R181): the UID is the session's; a failure of the call destroys the session. -/
def select (s : State) : Result Unit × State :=
  if s.regs.sessUidLen = 0#5 then (.fail .selectFailure, record .selectFailure s)
  else
    match tSelect s with
    | (true, s1) => (.ok (), setSelected s1)
    | (false, s1) => (.fail .selectFailure, record .selectFailure (clearSession s1))

/-- ESTABLISH (R182): DISCOVER, then SELECT if it gave a UID. -/
def establish (s : State) : Result Unit × State :=
  match discover s with
  | (.fail k, s1) => (.fail k, s1)
  | (.ok _, s1) => select s1

/-- The session state the response shows on Ok (R94): bit 0 = SESS_SELECTED. -/
def answerSelected (r : Result Unit × State) : State :=
  match r with
  | (.ok _, s) => respondErr ((BitVec.ofBool s.regs.sessSelected).zeroExtend 32) s
  | (.fail _, s) => respondErr 0#32 s

/-- DISCOVER on the command port (R180): bits 4:0 = SESS_UID_LEN (R94). -/
def execDiscover (s : State) : Host.Outcome State Fault Refusal :=
  command
    (fun s0 =>
      match discover s0 with
      | (.ok _, s1) => respondErr (s1.regs.sessUidLen.zeroExtend 32) s1
      | (.fail _, s1) => respondErr 0#32 s1) s

/-- SELECT on the command port (R181, R94). -/
def execSelect (s : State) : Host.Outcome State Fault Refusal :=
  command (fun s0 => answerSelected (select s0)) s

/-- ESTABLISH on the command port (R182, R94). -/
def execEstablish (s : State) : Host.Outcome State Fault Refusal :=
  command (fun s0 => answerSelected (establish s0)) s

end Sys2Proof.Machine
end

