-- ==== Sys2Proof/Machine/Arbiter.lean ====
section
/-! DEFINITION. The ARBITER family (44_arbiter_fsm.md): the direction decode, the five handlers, the
tick, and the table's rows for the handlers. -/

namespace Sys2Proof.Machine

/-- A named field of the register table, read by READ_REGISTER_BIT: the handlers name fields, never
addresses (R146). -/
def readNamed (f : Field) (s : State) : Result Byte × State := readRegisterBit f.id s

/-- The last lines of DATA_DIRECTION (R191): Unknown is recorded, DIR <- d, Ok(d). -/
def finishDirection (d : Direction) (s : State) : Result Direction × State :=
  (.ok d, setDir d.code (if d = .unknown then record .invalidConfiguration s else s))

/-- DATA_DIRECTION (R191): PT_TRANSFER_DIR, then ED_CONFIG, then, with LOCK_CHECK_EN = 1, byte 1 of the
status block; the first failed read ends it. -/
def dataDirection (s : State) : Result Direction × State :=
  match readNamed .ptTransferDir s with
  | (.fail k, s1) => (.fail k, s1)
  | (.ok pt, s1) =>
    match readNamed .edConfig s1 with
    | (.fail k, s2) => (.fail k, s2)
    | (.ok ed, s2) =>
      if s.inp.lockCheckEn then
        match readByte 0xA0#8 1 s2 with
        | (.fail k, s3) => (.fail k, s3)
        | (.ok st1, s3) => finishDirection (lockDir s.cfg (decodeDir pt ed) st1) s3
      else finishDirection (decodeDir pt ed) s2

/-- Elapsed time beyond the limit (R200): the modular difference, strictly greater. -/
def timedOut (now t0 : BitVec 32) : Bool := wdgLimit < (now - t0).toNat

/-- The handlers of R190's case. -/
inductive Handler where
  | init | triggerEnergyHarvest | waitI2cToNfc | waitNfcToI2c | fatal
  deriving DecidableEq, Repr

/-- The handler TICK dispatches to on STATE (R190): codes 5, 6 and 7 are Fatal's (R197). -/
def handlerOf (st : BitVec 3) : Handler :=
  if st = stInit then .init
  else if st = stTriggerEnergyHarvest then .triggerEnergyHarvest
  else if st = stWaitI2cToNfc then .waitI2cToNfc
  else if st = stWaitNfcToI2c then .waitNfcToI2c
  else .fatal

/-- H_Init (R193). -/
def hInit (now : BitVec 32) (s : State) : BitVec 3 × State :=
  match establish s with
  | (.fail _, s1) => (stInit, s1)
  | (.ok _, s1) =>
    (if s.inp.ehBootstrapEn then stTriggerEnergyHarvest else stWaitI2cToNfc, setWdgT0 now s1)

/-- H_TriggerEnergyHarvest (R194): one read, no write. -/
def hTriggerEnergyHarvest (s : State) : BitVec 3 × State :=
  match readNamed .ehLoadOk s with
  | (.fail _, s1) => (stTriggerEnergyHarvest, s1)
  | (.ok v, s1) => (if v = 0x80#8 then stWaitI2cToNfc else stTriggerEnergyHarvest, s1)

/-- Steps 4 to 6 of H_WaitI2cToNfc (R195): the mailbox read, then a fresh read of the ready flag. -/
def waitReadMailbox (s : State) : BitVec 3 × State :=
  match mbxRead 0#8 s with
  | (.fail _, s1) => (stWaitI2cToNfc, s1)
  | (.ok m, s1) =>
    if m.complete then
      match readNamed .sramDataRdy s1 with
      | (.fail _, s2) => (stWaitI2cToNfc, s2)
      | (.ok v, s2) => (if v = 0x20#8 then stWaitI2cToNfc else stWaitNfcToI2c, s2)
    else (stWaitI2cToNfc, record .readError s1)

/-- Steps 2 to 6 of H_WaitI2cToNfc (R195): the direction, the ready flag, then the mailbox. -/
def waitPoll (s : State) : BitVec 3 × State :=
  match dataDirection s with
  | (.fail _, s1) => (stWaitI2cToNfc, s1)
  | (.ok d, s1) =>
    if d = .i2cNfc then
      match readNamed .sramDataRdy s1 with
      | (.fail _, s2) => (stWaitI2cToNfc, s2)
      | (.ok v, s2) => if v = 0x20#8 then waitReadMailbox s2 else (stWaitI2cToNfc, s2)
    else (stWaitI2cToNfc, s1)

/-- H_WaitI2cToNfc (R195): the watchdog first, before anything is read. -/
def hWaitI2cToNfc (now : BitVec 32) (s : State) : BitVec 3 × State :=
  if timedOut now s.regs.wdgT0 then (stFatal, takeHalt .timeout s) else waitPoll s

/-- H_WaitNfcToI2c (R196). -/
def hWaitNfcToI2c (s : State) : BitVec 3 × State :=
  match dataDirection s with
  | (.fail _, s1) => (stWaitNfcToI2c, s1)
  | (.ok d, s1) =>
    if d = .nfcI2c then
      match mbxWrite s1 with
      | (.fail _, s2) => (stWaitNfcToI2c, s2)
      | (.ok _, s2) => (stWaitI2cToNfc, s2)
    else (stWaitNfcToI2c, s1)

/-- H_Fatal (R197). -/
def hFatal (s : State) : BitVec 3 × State := (stFatal, takeHalt .fatal s)

/-- One handler, to completion: the next state and what the handler did. -/
def runHandler (h : Handler) (now : BitVec 32) (s : State) : BitVec 3 × State :=
  match h with
  | .init => hInit now s
  | .triggerEnergyHarvest => hTriggerEnergyHarvest s
  | .waitI2cToNfc => hWaitI2cToNfc now s
  | .waitNfcToI2c => hWaitNfcToI2c s
  | .fatal => hFatal s

/-- The watchdog reload (R199): on a tick whose next state differs from its current one and is not
Fatal, when the current state is Init or WDG_RELOAD_ON_TRANSITION is 1. -/
def reloadWatchdog (cur next : BitVec 3) (now : BitVec 32) (s : State) : State :=
  if next ≠ cur ∧ next ≠ stFatal ∧ (cur = stInit ∨ s.cfg.wdgReloadOnTransition = true) then
    setWdgT0 now s
  else s

/-- The body of a tick whose handler is h (R190): NOW is sampled once, the handler runs, the watchdog is
perhaps reloaded, STATE <- next, and the response carries LAST_ERR, STATE and HALT. -/
def tickBody (h : Handler) (s : State) : State :=
  match runHandler h s.inp.now s with
  | (next, s1) =>
    let s2 := setState next (reloadWatchdog s.regs.state next s.inp.now s1)
    respondErr (tickData s2.regs.state s2.regs.halt) s2

/-- DATA_DIRECTION on the command port (R191): its status is LAST_ERR, so Unknown answers status 7 and
data 0 (R25, C10). -/
def execDataDirection (s : State) : Host.Outcome State Fault Refusal :=
  command (fun s0 => answer (fun d => d.code.zeroExtend 32) (dataDirection s0)) s

/-- TICK (R190): the handler is the one STATE selects. -/
def execTick (s : State) : Host.Outcome State Fault Refusal :=
  command (fun s0 => tickBody (handlerOf s0.regs.state) s0) s

/-- H_Init (R193), as the tick that runs it (log entry 9). -/
def execHInit (s : State) : Host.Outcome State Fault Refusal := command (tickBody .init) s

/-- H_TriggerEnergyHarvest (R194), as the tick that runs it. -/
def execHTriggerEnergyHarvest (s : State) : Host.Outcome State Fault Refusal :=
  command (tickBody .triggerEnergyHarvest) s

/-- H_WaitI2cToNfc (R195), as the tick that runs it. -/
def execHWaitI2cToNfc (s : State) : Host.Outcome State Fault Refusal :=
  command (tickBody .waitI2cToNfc) s

/-- H_WaitNfcToI2c (R196), as the tick that runs it. -/
def execHWaitNfcToI2c (s : State) : Host.Outcome State Fault Refusal :=
  command (tickBody .waitNfcToI2c) s

/-- H_Fatal (R197), as the tick that runs it. -/
def execHFatal (s : State) : Host.Outcome State Fault Refusal := command (tickBody .fatal) s

/-- H_Fatal_default_5_7 (R197): STATE codes 5 and 7 are handled as Fatal. -/
def execHFatalDefault57 (_x : Bool) (s : State) : Host.Outcome State Fault Refusal :=
  command (tickBody .fatal) s

/-- H_Fatal_default_6 (R197): STATE code 6 is handled as Fatal. -/
def execHFatalDefault6 (s : State) : Host.Outcome State Fault Refusal := command (tickBody .fatal) s

end Sys2Proof.Machine
end

