-- ==== Sys2Proof/Machine/FlagEncoder.lean ====
section
/-! DEFINITION. The FLAGENC family (40_flag_encoder.md): ENCODE_FLAGS and the FLAGS byte. FLAGENC is
combinational: it reads no register, HALT included, and writes none (R130, R131). -/

namespace Sys2Proof.Machine

/-- ENCODE_FLAGS (R130): the nine options stand on FE_OPTS, and FE_FLAGS, which follows FE_OPTS with no
clock and no state, is their encoding (`State.feFlags`). -/
def execEncodeFlags (opts : Options) (s : State) : Host.Outcome State Fault Refusal :=
  .next (setFeOpts opts.toBits s)

/-- FLAGS (R95), the byte 0osapihd: it stands at FE_FLAGS, that is, FE_OPTS holds the options the byte
carries, those it does not carry false (log entry 10). -/
def execFlags (o sa a p i h d : Bool) (s : State) : Host.Outcome State Fault Refusal :=
  .next (setFeOpts (flagsOptions o sa a p i h d).toBits s)

end Sys2Proof.Machine
end

