-- ==== Sys2Proof/Machine/Frames.lean ====
section
/-! DEFINITION. The transport frames (30_encoding.md R97 to R103) as rows of the table: one transport
call each, with the request the row gives and the response test the row gives, whose result stands
in `env.value`. Neither primitive checks its address (R11). -/

namespace Sys2Proof.Machine

/-- T_READ_CONFIG (R98). -/
def execTReadConfig (a : Byte) (s : State) : Host.Outcome State Fault Refusal :=
  frameRow (tReadConfig a) s

/-- T_WRITE_CONFIG (R99). -/
def execTWriteConfig (a : Byte) (v : BitVec 32) (s : State) : Host.Outcome State Fault Refusal :=
  frameRow (tWriteConfig a v) s

/-- T_READ_SRAM (R100), 1 <= n <= 15; any other count is no frame. -/
def execTReadSram (a : Byte) (n : Nat) (s : State) : Host.Outcome State Fault Refusal :=
  if FrameCount n then frameRow (tReadSram a n) s else .refused .malformedFrame

/-- T_WRITE_SRAM (R101), D of 1 to 15 whole blocks; any other D is no frame. -/
def execTWriteSram (a : Byte) (d : List Byte) (s : State) : Host.Outcome State Fault Refusal :=
  if WholeBlocks d then frameRow (tWriteSram a d) s else .refused .malformedFrame

/-- T_SELECT (R102): the payload is the session's UID (log entry 12). -/
def execTSelect (s : State) : Host.Outcome State Fault Refusal := frameRow tSelect s

/-- T_INVENTORY (R103). -/
def execTInventory (s : State) : Host.Outcome State Fault Refusal := frameRow tInventory s

end Sys2Proof.Machine
end

