-- ==== Sys2Proof/Machine/Reserved.lean ====
section
/-! DEFINITION. The reserved operations (30_encoding.md R92). -/

namespace Sys2Proof.Machine

/-- RESERVED_OP (R92): record(InvalidOp), status 12, data 0, nothing else; the block is not halted. -/
def execReservedOp (_oo : BitVec 2) (s : State) : Host.Outcome State Fault Refusal :=
  command (fun s0 => respondErr 0#32 (record .invalidOp s0)) s

end Sys2Proof.Machine
end

