-- ==== Sys2Proof/Machine/Dispatch.lean ====
section
/-! DEFINITION. One arm per instruction, each a direct call of its meaning. -/

namespace Sys2Proof.Machine

def exec (i : Instr) (s : State) : Host.Outcome State Fault Refusal :=
  match i with
  | .tick => Sys2Proof.Machine.execTick s
  | .readBlock a => Sys2Proof.Machine.execReadBlock a s
  | .readByte a b => Sys2Proof.Machine.execReadByte a b s
  | .readRegisterBit a => Sys2Proof.Machine.execReadRegisterBit a s
  | .readConfigBit a => Sys2Proof.Machine.execReadConfigBit a s
  | .writeBlock a w => Sys2Proof.Machine.execWriteBlock a w s
  | .mbxRead b => Sys2Proof.Machine.execMbxRead b s
  | .mbxWrite => Sys2Proof.Machine.execMbxWrite s
  | .discover => Sys2Proof.Machine.execDiscover s
  | .select => Sys2Proof.Machine.execSelect s
  | .establish => Sys2Proof.Machine.execEstablish s
  | .dataDirection => Sys2Proof.Machine.execDataDirection s
  | .reservedOp oo => Sys2Proof.Machine.execReservedOp oo s
  | .hInit => Sys2Proof.Machine.execHInit s
  | .hTriggerEnergyHarvest => Sys2Proof.Machine.execHTriggerEnergyHarvest s
  | .hWaitI2cToNfc => Sys2Proof.Machine.execHWaitI2cToNfc s
  | .hWaitNfcToI2c => Sys2Proof.Machine.execHWaitNfcToI2c s
  | .hFatal => Sys2Proof.Machine.execHFatal s
  | .hFatalDefault57 x => Sys2Proof.Machine.execHFatalDefault57 x s
  | .hFatalDefault6 => Sys2Proof.Machine.execHFatalDefault6 s
  | .flags o sa a p j h d => Sys2Proof.Machine.execFlags o sa a p j h d s
  | .encodeFlags opts => Sys2Proof.Machine.execEncodeFlags opts s
  | .tReadConfig a => Sys2Proof.Machine.execTReadConfig a s
  | .tWriteConfig a v => Sys2Proof.Machine.execTWriteConfig a v s
  | .tReadSram a n => Sys2Proof.Machine.execTReadSram a n s
  | .tWriteSram a d => Sys2Proof.Machine.execTWriteSram a d s
  | .tSelect => Sys2Proof.Machine.execTSelect s
  | .tInventory => Sys2Proof.Machine.execTInventory s

end Sys2Proof.Machine
end

