-- ==== Sys2Proof/Machine/Host.lean ====
section
/-! DEFINITION. The host's side of the ports: what presenting a table row's word takes, and the
written form of commands (30_encoding.md R110). -/

namespace Sys2Proof.Machine

/-- The state in which the host's next event presents `code`, or STATE selects it: a command word waits
on the command port with the present inputs; a STATE code stands in STATE and a TICK waits; an option
vector waits on the FE_OPTS port, and a flags byte as the vector it encodes. A transport request is
no event of the host's (log entries 5, 9, 10, 13). -/
def present (code : Code) (s : State) : State :=
  match code with
  | .cmd w => { s with pending := .command s.inp w :: s.pending }
  | .state c => setState c { s with pending := .command s.inp 0#52 :: s.pending }
  | .opts v => { s with pending := .options v :: s.pending }
  | .flags b =>
    { s with pending :=
        .options (flagsOptions (b.getLsbD 6) (b.getLsbD 5) (b.getLsbD 4) (b.getLsbD 3)
          (b.getLsbD 2) (b.getLsbD 1) (b.getLsbD 0)).toBits :: s.pending }
  | .frame _ => s

/-! ### The written form (R110) -/

/-- The mnemonics of R91. -/
inductive Mnemonic where
  | tick | readBlock | readByte | readRegisterBit | readConfigBit | writeBlock | mbxRead | mbxWrite
  | discover | select | establish | dataDirection
  deriving DecidableEq, Repr

/-- A written operand: a number, a field name, or the source's two-name form. -/
inductive Written where
  | num (n : Nat)
  | field (f : Field)
  | pair (d : Descriptor) (f : Field)
  deriving DecidableEq, Repr

/-- A number as an operand of w bits, if it fits. -/
def writtenNum (w n : Nat) : Option (BitVec w) := if n < 2 ^ w then some (BitVec.ofNat w n) else none

/-- A written field of the table `t`: a number is the identifier itself (vectors A20, A22), a name is
looked up, and a pair is accepted only when it is a row of R40. -/
def writtenField (t : DescTable) : Written → Option Byte
  | .num n => writtenNum 8 n
  | .field f => if f.descriptor.place.1 = t then some f.id else none
  | .pair d f => if f.descriptor = d ∧ d.place.1 = t then some f.id else none

/-- The command word of one written line (R110, R91). -/
def assemble (m : Mnemonic) (ops : List Written) : Option (BitVec 52) :=
  match m, ops with
  | .tick, [] => some (commandWord 0x0#4 0 0 0)
  | .readBlock, [.num a] => (writtenNum 8 a).map fun a => commandWord 0x1#4 a 0 0
  | .readByte, [.num a, .num k] =>
    (writtenNum 8 a).bind fun a => (writtenNum 8 k).map fun k => commandWord 0x2#4 a k 0
  | .readRegisterBit, [f] => (writtenField .register f).map fun f => commandWord 0x3#4 f 0 0
  | .readConfigBit, [f] => (writtenField .config f).map fun f => commandWord 0x4#4 f 0 0
  | .writeBlock, [.num a, .num v] =>
    (writtenNum 8 a).bind fun a => (writtenNum 32 v).map fun v => commandWord 0x5#4 a 0 v
  | .mbxRead, [] => some (commandWord 0x6#4 0 0 0)
  | .mbxRead, [.num b] => (writtenNum 8 b).map fun b => commandWord 0x6#4 0 b 0
  | .mbxWrite, [] => some (commandWord 0x7#4 0 0 0)
  | .discover, [] => some (commandWord 0x8#4 0 0 0)
  | .select, [] => some (commandWord 0x9#4 0 0 0)
  | .establish, [] => some (commandWord 0xA#4 0 0 0)
  | .dataDirection, [] => some (commandWord 0xB#4 0 0 0)
  | _, _ => none

/-- The directives of R110 that set a host input. -/
inductive Directive where
  /-- `.now n`. -/
  | now (n : BitVec 32)
  /-- `.tx bytes`: TX_DATA, and TX_NBLK = number of bytes / 4. -/
  | tx (bytes : List Byte)
  /-- `.txn n`: TX_NBLK outright. -/
  | txn (n : Byte)
  /-- `.cfg EH_BOOTSTRAP_EN=value`. -/
  | ehBootstrapEn (b : Bool)
  /-- `.cfg LOCK_CHECK_EN=value`. -/
  | lockCheckEn (b : Bool)
  deriving DecidableEq, Repr

/-- A directive's effect on the inputs (R110); the bytes of `.tx` must be whole blocks that TX_DATA
holds, or it sets nothing. -/
def applyDirective (d : Directive) (i : Inputs) : Inputs :=
  match d with
  | .now n => { i with now := n }
  | .tx bs =>
    if bs.length % 4 = 0 ∧ bs.length ≤ 60 then
      { i with
        txData := overlay bs (fun k => i.txData.toList.getD k 0)
        txNblk := BitVec.ofNat 8 (bs.length / 4) }
    else i
  | .txn n => { i with txNblk := n }
  | .ehBootstrapEn b => { i with ehBootstrapEn := b }
  | .lockCheckEn b => { i with lockCheckEn := b }

end Sys2Proof.Machine
end

