-- ==== Sys2Proof/Machine/Step.lean ====
section
/-! DEFINITION. One step: the host's next event, run to completion (00_scope.md R4, R252). -/

namespace Sys2Proof.Machine

/-- One step. With nothing presented the block is idle and holds its registers (R234, R250). A command
is accepted with its inputs, decoded and run; an option vector reaches FLAGENC; a reset resets. -/
def step (s : State) : Host.Outcome State Fault Refusal :=
  match s.pending with
  | [] => .next s
  | .reset :: rest => .next (applyReset { s with pending := rest })
  | .options v :: rest => exec (decodeOptions v) { s with pending := rest }
  | .command inp w :: rest => exec (decodeCmd w) { s with inp := inp, pending := rest }

/-- s with the instruction of an opcode-table word presented as what the next step runs. -/
def State.withFetchWord (s : State) (nbits w : Nat) : State :=
  match tableCode nbits w with
  | none => s
  | some code => present code s

end Sys2Proof.Machine
end

