-- ==== Sys2Proof/Safety.lean ====
section
/-! DEFINITION. What the claims call a sound state and a disciplined history of transport calls. -/

namespace Sys2Proof.Machine

/-- What the spec says of the registers in every state of a run (R21, R22, R24, R27, R197, R220):
EXIT_CAUSE is 8 or 9 while HALT = 1 and 0 otherwise; STATE is Fatal exactly when HALT = 1, and codes 5
to 7 never occur; a selected session has a UID; the lengths stay within their buffers; LAST_ERR is a
code of R220. -/
structure SoundRegs (r : Regs) : Prop where
  exitCause : if r.halt then r.exitCause = 8#4 ∨ r.exitCause = 9#4 else r.exitCause = 0#4
  fatalHalted : r.state = stFatal ↔ r.halt = true
  stateCode : r.state.toNat ≤ 4
  selectedHasUid : r.sessSelected = true → r.sessUidLen ≠ 0#5
  uidLen : r.sessUidLen.toNat ≤ 16
  rxLen : r.rxLen.toNat ≤ 248
  rxWholeBlocks : r.rxLen.toNat % 4 = 0
  lastErr : r.lastErr.toNat ≤ 12

/-- No T_READ_SRAM of the history asks for more than 15 blocks: its size byte is at most 0x0E (R253). -/
def SramReadsBounded (c : Cfg) (h : List Call) : Prop :=
  ∀ fl p r, Call.issue fl c.ccReadSram p r ∈ h → ∃ a sz : Byte, p = [a, sz] ∧ sz.toNat ≤ 0x0E

/-- Every T_WRITE_SRAM to 0x3F is immediately preceded by a T_WRITE_SRAM to 0x00 that returned at least
one frame (R254). -/
def TerminatorsGuarded (c : Cfg) (h : List Call) : Prop :=
  ∀ before fl p r after, h = before ++ Call.issue fl c.ccWriteSram (0x3F#8 :: p) r :: after →
    ∃ before' fl' p' f fs,
      before = before' ++ [Call.issue fl' c.ccWriteSram (0x00#8 :: p') (.frames (f :: fs))]

/-- The discipline R253 and R254 demand of every history of transport calls. -/
def DisciplinedHistory (c : Cfg) (h : List Call) : Prop :=
  SramReadsBounded c h ∧ TerminatorsGuarded c h

/-- The state with another call, or none, as the one that never returns (R203, U2). -/
def hanging (h : Option Nat) (s : State) : State := { s with env := { s.env with hangAt := h } }

/-- What no operation of the block changes: the host's inputs and events, the configuration, and the
calls already made. -/
structure Steady (s t : State) : Prop where
  inp : t.inp = s.inp
  feOpts : t.feOpts = s.feOpts
  cfg : t.cfg = s.cfg
  pending : t.pending = s.pending
  hangAt : t.env.hangAt = s.env.hangAt
  history : s.env.history <+: t.env.history

end Sys2Proof.Machine
end

