-- ==== Sys2Proof/Certificates/Slice0/Obligations.lean ====
section
/-! DEFINITION. The statements for the provers, formalised from the numbered rules of spec/. -/

open Sys2Proof Sys2Proof.Machine

namespace Sys2Proof.Claims

/-! ### The terms the statements share -/

/-- The block is not halted and the transport answers every call (R201, R203). -/
abbrev Running (s : State) : Prop := s.regs.halt = false ∧ s.env.hangAt = none

/-- The block is halted and the transport would answer every call (R24, R201). -/
abbrev StoppedBlock (s : State) : Prop := s.regs.halt = true ∧ s.env.hangAt = none

/-- A CFG address the block accepts (R70). -/
abbrev ValidAddress (a : Byte) : Prop := a.toNat ≤ 0x3F ∨ (0xA0 ≤ a.toNat ∧ a.toNat ≤ 0xA8)

/-- A frame that carries `len` payload bytes: at least HDR_BYTES + len long (R11). -/
abbrev WholeFrame (c : Cfg) (len : Nat) (f : List Byte) : Prop := c.hdrBytes + len ≤ f.length

/-- An answer a read makes nothing of (R11): TFail, zero frames, or a first frame that is too short. -/
def EmptyAnswer (c : Cfg) (len : Nat) (r : IssueAnswer) : Prop :=
  r = .fail ∨ r = .frames [] ∨ ∃ f fs, r = .frames (f :: fs) ∧ f.length < c.hdrBytes + len

/-- An answer that makes a write fail (R11): TFail or zero frames. -/
def NoFrame (r : IssueAnswer) : Prop := r = .fail ∨ r = .frames []

/-- Payload byte k of a response frame (R61): byte HDR_BYTES + k. -/
def frameByte (c : Cfg) (f : List Byte) (k : Nat) : Byte := f.getD (c.hdrBytes + k) 0#8

/-- The block of a response frame, in wire order (R98). -/
def frameBlock (c : Cfg) (f : List Byte) : List Byte :=
  [frameByte c f 0, frameByte c f 1, frameByte c f 2, frameByte c f 3]

/-- The 32-bit view of that block: offset k in bits 8k+7 to 8k (R62). -/
def frameWord (c : Cfg) (f : List Byte) : BitVec 32 :=
  frameByte c f 3 ++ frameByte c f 2 ++ frameByte c f 1 ++ frameByte c f 0

/-- The call of a T_READ_CONFIG of address a answered r (R98). -/
def configRead (c : Cfg) (a : Byte) (r : IssueAnswer) : Call :=
  .issue (tunnelFlags c) c.ccReadConfig [a] r

/-- The call of a T_WRITE_CONFIG (R99): the value least significant byte first. -/
def configWrite (c : Cfg) (a : Byte) (v : BitVec 32) (r : IssueAnswer) : Call :=
  .issue (tunnelFlags c) c.ccWriteConfig
    [a, v.extractLsb' 0 8, v.extractLsb' 8 8, v.extractLsb' 16 8, v.extractLsb' 24 8] r

/-- The call of a T_READ_SRAM of n blocks from address a answered r (R100). -/
def sramRead (c : Cfg) (a : Byte) (n : Nat) (r : IssueAnswer) : Call :=
  .issue (tunnelFlags c) c.ccReadSram [a, BitVec.ofNat 8 (n - 1)] r

/-- The call of a T_WRITE_SRAM of the n blocks d to address a answered r (R101). -/
def sramWrite (c : Cfg) (a : Byte) (n : Nat) (d : List Byte) (r : IssueAnswer) : Call :=
  .issue (tunnelFlags c) c.ccWriteSram (a :: BitVec.ofNat 8 (n - 1) :: d) r

/-- The call of a T_SELECT of the UID u answered r (R102). -/
def selectCall (c : Cfg) (u : List Byte) (r : IssueAnswer) : Call :=
  .issue (selectFlags c) c.ccSelect u r

/-- The transport after calls `cs`, with the answers `rest` left and `v` delivered last. -/
def after (e : Env) (cs : List Call) (rest : List IssueAnswer) (v : FrameValue) : Env :=
  { e with issues := rest, history := e.history ++ cs, value := v }

/-- The state after a command that is refused with kind k and makes no call (R224): LAST_ERR, one LOG
event, the status and data 0. -/
def refused (k : Kind) (code : BitVec 4) (s : State) : State :=
  { s with
    regs := { s.regs with lastErr := code }
    log := s.log ++ [k]
    rsp := some { status := code, data := 0#32 } }

/-- The state after a READ_BLOCK, alone or inside another command, that fetched the block of frame f,
answered with `data` (R140). -/
def fetched (s : State) (a : Byte) (f : List Byte) (fs : List (List Byte)) (data : BitVec 32) :
    State :=
  { s with
    regs := { s.regs with lastErr := 0#4, blk := frameWord s.cfg f }
    env := after s.env [configRead s.cfg a (.frames (f :: fs))] s.env.issues.tail
      (.read (some (frameBlock s.cfg f)))
    rsp := some { status := 0#4, data := data } }

/-- The state after a READ_BLOCK, alone or inside another command, whose one call answered r and
delivered nothing (R140, R226). -/
def notFetched (s : State) (a : Byte) (r : IssueAnswer) : State :=
  { s with
    regs := { s.regs with lastErr := 3#4 }
    env := after s.env [configRead s.cfg a r] s.env.issues.tail (.read none)
    log := s.log ++ [.readError]
    rsp := some { status := 3#4, data := 0#32 } }

/-- The block count of a mailbox read with operand tb and header l (R160, R162). -/
def mailboxCount (tb l : Byte) : Nat := if tb = 0#8 then (l.toNat + 3) / 4 else tb.toNat

/-- What each chunk of a schedule delivers, its answers given (R11, R162). -/
def chunkData (c : Cfg) (n : Nat) (answers : List IssueAnswer) : List (Option (List Byte)) :=
  ((schedule n).zip answers).map fun p => readPayload c.hdrBytes (4 * p.1.2) p.2

/-- The calls of those chunk reads (R100, R161). -/
def chunkCalls (c : Cfg) (n : Nat) (answers : List IssueAnswer) : List Call :=
  ((schedule n).zip answers).map fun p => sramRead c p.1.1 p.1.2 p.2

/-- The payload of a mailbox read: the chunks that came back, in address order (R162). -/
def chunkPayload (c : Cfg) (n : Nat) (answers : List IssueAnswer) : List Byte :=
  ((chunkData c n answers).map fun d => d.getD []).flatten

/-- Whether every chunk came back whole (R162). -/
def chunksWhole (c : Cfg) (n : Nat) (answers : List IssueAnswer) : Bool :=
  (chunkData c n answers).all Option.isSome

/-- The direction code of two frames (R106, R192): f1 of block 0xA1, f2 of block 0xA8. -/
def directionCode (c : Cfg) (f1 f2 : List Byte) : BitVec 2 :=
  let pt := frameByte c f1 1 &&& 0x01#8
  let ed := frameByte c f2 0 &&& 0x0F#8
  if pt = 0x0#8 ∧ ed = 0x3#8 then 1#2 else if pt = 0x1#8 ∧ ed = 0x4#8 then 2#2 else 0#2

/-- The status, and the LOG events, of a direction: Unknown is recorded (R191). -/
def directionStatus (d : BitVec 2) : BitVec 4 := if d = 0#2 then 7#4 else 0#4

def directionLog (d : BitVec 2) : List Kind := if d = 0#2 then [.invalidConfiguration] else []

/-- The transition table of R198. -/
def transitions : List (BitVec 3 × BitVec 3) :=
  [(0, 0), (0, 1), (0, 2), (1, 1), (1, 2), (2, 4), (2, 2), (2, 3), (3, 3), (3, 2), (4, 4), (5, 4),
    (6, 4), (7, 4)]

/-- The most transport calls a tick makes (R203). -/
def tickCallBound (st : BitVec 3) (lock : Bool) : Nat :=
  if st = 0#3 then 2
  else if st = 1#3 then 1
  else if st = 2#3 then (if lock then 11 else 10)
  else if st = 3#3 then (if lock then 5 else 4)
  else 0

/-- A call a TICK may make (R146, R202, R104): an inventory, a select, a configuration read of 0xA0,
0xA1, 0xA7 or 0xA8, or an SRAM access at 0x00 to 0x3F. -/
def TickCall (c : Cfg) : Call → Prop
  | .inventory _ => True
  | .issue fl cc p _ =>
    (fl = selectFlags c ∧ cc = c.ccSelect) ∨
      (fl = tunnelFlags c ∧ cc = c.ccReadConfig ∧ p ∈ [[0xA0#8], [0xA1#8], [0xA7#8], [0xA8#8]]) ∨
      (fl = tunnelFlags c ∧ (cc = c.ccReadSram ∨ cc = c.ccWriteSram) ∧
        ∃ a q, p = a :: q ∧ a.toNat ≤ 0x3F)

/-- Nothing outside the registers, the transport, the response and the log changes. -/
abbrev SameInputs (s t : State) : Prop :=
  t.inp = s.inp ∧ t.feOpts = s.feOpts ∧ t.cfg = s.cfg ∧ t.pending = s.pending

end Sys2Proof.Claims

open Sys2Proof.Claims

/-! ### Encodings (30_encoding.md) -/

/-- Decoding an encoded well-formed instruction gives it back, for all 28 rows. The decoder of frames is the
model's (log entry 20), as is that T_SELECT's UID stands beside the instruction (log entry 12). -/
def Obligations.DecodeEncodeRoundTrip : Prop :=
  ∀ (c : Cfg) (uid : List Byte) (i : Instr), c.CodesDistinct → UidBytes uid → wellFormed i = true →
    decode c (encode c uid i) = .ok i

/-- Off the command port, where no bit is ignored, a word that decodes is the encoding of what it decodes
to. For the frames this is about the model's own decoder of transport requests, which refuses a wrong
flags byte, length or size byte (log entry 20); T_SELECT's word carries the session's UID, which the
decoder drops, so its word is the encoding for that UID (log entry 12). -/
def Obligations.EncodeDecodeOffCommandPort : Prop :=
  ∀ (c : Cfg) (uid : List Byte) (w : Code) (i : Instr), w.format ≠ .cmd52 → decode c w = .ok i →
    encode c uid i = w ∨ ∃ u, i = .tSelect ∧ w = encode c u i

/-- R90, R91, R92: the op code and the operand fields of a command word select the instruction, and the
fields an operation does not use are ignored, whatever they hold. -/
def Obligations.CommandWordSelectsInstruction : Prop :=
  ∀ (a b : Byte) (w : BitVec 32) (oo : BitVec 2),
    decodeCmd (0x0#4 ++ a ++ b ++ w) = .tick ∧
    decodeCmd (0x1#4 ++ a ++ b ++ w) = .readBlock a ∧
    decodeCmd (0x2#4 ++ a ++ b ++ w) = .readByte a b ∧
    decodeCmd (0x3#4 ++ a ++ b ++ w) = .readRegisterBit a ∧
    decodeCmd (0x4#4 ++ a ++ b ++ w) = .readConfigBit a ∧
    decodeCmd (0x5#4 ++ a ++ b ++ w) = .writeBlock a w ∧
    decodeCmd (0x6#4 ++ a ++ b ++ w) = .mbxRead b ∧
    decodeCmd (0x7#4 ++ a ++ b ++ w) = .mbxWrite ∧
    decodeCmd (0x8#4 ++ a ++ b ++ w) = .discover ∧
    decodeCmd (0x9#4 ++ a ++ b ++ w) = .select ∧
    decodeCmd (0xA#4 ++ a ++ b ++ w) = .establish ∧
    decodeCmd (0xB#4 ++ a ++ b ++ w) = .dataDirection ∧
    decodeCmd (((0b11#2 ++ oo) ++ a ++ b ++ w : BitVec 52)) = .reservedOp oo

/-- Words the spec writes out (95_test_vectors.md 2.2, R105, R95) decode to their instructions. That
decodeTableWord tells the format by the width alone (56 bits a command word, 8 bits a STATE code below 8
and a FLAGS byte from 8 on) is the model's choice (log entry 13). -/
def Obligations.SpecWordsDecode : Prop :=
  decodeTableWord 56 0x2A00100000000 = some (.readByte 0xA0#8 0x01#8) ∧
  decodeTableWord 56 0x5A10011223344 = some (.writeBlock 0xA1#8 0x11223344#32) ∧
  decodeTableWord 56 0x6001000000000 = some (.mbxRead 0x10#8) ∧
  decodeTableWord 56 0x0FFFFFFFFFFFF = some .tick ∧
  decodeTableWord 56 0xCFFFFFFFFFFFF = some (.reservedOp 0#2) ∧
  decodeTableWord 8 0b010 = some .hWaitI2cToNfc ∧
  decodeTableWord 8 0b00100100 = some (.flags false true false false true false false) ∧
  decodeTableWord 8 0b10000000 = none

/-! ### FLAGENC (40_flag_encoder.md) -/

/-- R130: FE_FLAGS, bit for bit; FLAGENC writes no register and makes no call. -/
def Obligations.EncodeFlagsFollowsLayout : Prop :=
  ∀ (o : Options) (s : State), ∃ t, exec (.encodeFlags o) s = .next t ∧
    t = { s with feOpts := t.feOpts } ∧
    t.feFlags.getLsbD 7 = false ∧
    t.feFlags.getLsbD 6 = o.option ∧
    t.feFlags.getLsbD 5 = (if o.inventory then o.singleSlot else o.address) ∧
    t.feFlags.getLsbD 4 = (if o.inventory then o.afi else o.select) ∧
    t.feFlags.getLsbD 3 = o.protocolExtension ∧
    t.feFlags.getLsbD 2 = o.inventory ∧
    t.feFlags.getLsbD 1 = o.highDataRate ∧
    t.feFlags.getLsbD 0 = o.doubleSubCarrier

/-- R132: the range of ENCODE_FLAGS is the 128 bytes with bit 7 clear, each produced by exactly four of
the 512 input vectors, which differ in the two options that `inventory` leaves unused. -/
def Obligations.EncodeFlagsRange : Prop :=
  (∀ b : Byte,
    (b.getLsbD 7 = true → ∀ o, encodeFlags o ≠ b) ∧
    (b.getLsbD 7 = false →
      ∃ l : List Options, l.Nodup ∧ l.length = 4 ∧ ∀ o, encodeFlags o = b ↔ o ∈ l)) ∧
  ∀ (o : Options) (x y : Bool),
    (o.inventory = false →
      encodeFlags { o with singleSlot := x, afi := y } = encodeFlags o) ∧
    (o.inventory = true →
      encodeFlags { o with address := x, select := y } = encodeFlags o)

/-- The FLAGS row run on its own (the model's choice, log entry 10): FE_FLAGS shows the byte 0osapihd of
R95, and only FE_OPTS changes. -/
def Obligations.FlagsRowShowsItsByte : Prop :=
  ∀ (o sa a p i h d : Bool) (s : State), ∃ t, exec (.flags o sa a p i h d) s = .next t ∧
    t = { s with feOpts := t.feOpts } ∧
    t.feFlags = BitVec.ofBool false ++ BitVec.ofBool o ++ BitVec.ofBool sa ++ BitVec.ofBool a ++
      BitVec.ofBool p ++ BitVec.ofBool i ++ BitVec.ofBool h ++ BitVec.ofBool d

/-! ### REGACC (41_accessor.md) -/

/-- R140: READ_BLOCK refuses an address outside VALID_CFG without a call; otherwise its one call fetches the
block when the first frame is long enough, and fails with ReadError when there is nothing to read. -/
def Obligations.ReadBlockFetchesOrFails : Prop :=
  ∀ (s : State) (a : Byte), Running s →
    (¬ValidAddress a → exec (.readBlock a) s = .next (refused .invalidAddress 6#4 s)) ∧
    (ValidAddress a → ∀ f fs, nextIssue s = .frames (f :: fs) → WholeFrame s.cfg 4 f →
      exec (.readBlock a) s = .next (fetched s a f fs (frameWord s.cfg f))) ∧
    (ValidAddress a → EmptyAnswer s.cfg 4 (nextIssue s) →
      exec (.readBlock a) s = .next (notFetched s a (nextIssue s)))

/-- R141: READ_BYTE tests the offset, then the address, then reads, and answers the byte at the offset. -/
def Obligations.ReadByteSlicesOrFails : Prop :=
  ∀ (s : State) (a k : Byte), Running s →
    (3 < k.toNat → exec (.readByte a k) s = .next (refused .invalidOffset 5#4 s)) ∧
    (k.toNat ≤ 3 → ¬ValidAddress a →
      exec (.readByte a k) s = .next (refused .invalidAddress 6#4 s)) ∧
    (k.toNat ≤ 3 → ValidAddress a → EmptyAnswer s.cfg 4 (nextIssue s) →
      exec (.readByte a k) s = .next (notFetched s a (nextIssue s))) ∧
    (k.toNat ≤ 3 → ValidAddress a → ∀ f fs, nextIssue s = .frames (f :: fs) →
      WholeFrame s.cfg 4 f →
      exec (.readByte a k) s =
        .next (fetched s a f fs ((frameByte s.cfg f k.toNat).zeroExtend 32)))

/-- R142, R40: READ_REGISTER_BIT answers byte AND mask for every row of the register table; every other
identifier, a high nibble that is not 0 included, is refused without a call. -/
def Obligations.ReadRegisterBitMasksField : Prop :=
  ∀ (s : State), Running s →
    (∀ row ∈ [(0#8, 0xA0#8, 0, 0x20#8), (1#8, 0xA0#8, 1, 0x02#8), (2#8, 0xA0#8, 1, 0x01#8),
        (3#8, 0xA1#8, 1, 0x01#8), (4#8, 0xA1#8, 1, 0x02#8), (5#8, 0xA7#8, 0, 0x80#8),
        (6#8, 0xA7#8, 0, 0x08#8), (7#8, 0xA7#8, 0, 0x01#8), (8#8, 0xA8#8, 0, 0x0F#8)],
      (∀ f fs, nextIssue s = .frames (f :: fs) → WholeFrame s.cfg 4 f →
        exec (.readRegisterBit row.1) s =
          .next (fetched s row.2.1 f fs
            ((frameByte s.cfg f row.2.2.1 &&& row.2.2.2).zeroExtend 32))) ∧
      (EmptyAnswer s.cfg 4 (nextIssue s) →
        exec (.readRegisterBit row.1) s = .next (notFetched s row.2.1 (nextIssue s)))) ∧
    (∀ a : Byte, 9 ≤ a.toNat →
      exec (.readRegisterBit a) s = .next (refused .invalidAddress 6#4 s))

/-- R143, R40: READ_CONFIG_BIT has one field, SRAM_PROT at 0x3F byte 1 with SRAM_PROT_MASK. -/
def Obligations.ReadConfigBitMasksField : Prop :=
  ∀ (s : State), Running s →
    (∀ f fs, nextIssue s = .frames (f :: fs) → WholeFrame s.cfg 4 f →
      exec (.readConfigBit 0#8) s =
        .next (fetched s 0x3F#8 f fs ((frameByte s.cfg f 1 &&& s.cfg.sramProtMask).zeroExtend 32))) ∧
    (EmptyAnswer s.cfg 4 (nextIssue s) →
      exec (.readConfigBit 0#8) s = .next (notFetched s 0x3F#8 (nextIssue s))) ∧
    (∀ a : Byte, 1 ≤ a.toNat → exec (.readConfigBit a) s = .next (refused .invalidAddress 6#4 s))

/-- R144: WRITE_BLOCK sends the value least significant byte first, and answers status 0 whether the
write succeeded or not; a failed one is recorded. -/
def Obligations.WriteBlockFiresAndForgets : Prop :=
  ∀ (s : State) (a : Byte) (v : BitVec 32), Running s →
    (¬ValidAddress a → exec (.writeBlock a v) s = .next (refused .invalidAddress 6#4 s)) ∧
    (ValidAddress a → ∀ f fs, nextIssue s = .frames (f :: fs) →
      exec (.writeBlock a v) s = .next { s with
        regs := { s.regs with lastErr := 0#4 }
        env := after s.env [configWrite s.cfg a v (.frames (f :: fs))] s.env.issues.tail (.wrote true)
        rsp := some { status := 0#4, data := 0#32 } }) ∧
    (ValidAddress a → NoFrame (nextIssue s) →
      exec (.writeBlock a v) s = .next { s with
        regs := { s.regs with lastErr := 10#4 }
        env := after s.env [configWrite s.cfg a v (nextIssue s)] s.env.issues.tail (.wrote false)
        log := s.log ++ [.writeError]
        rsp := some { status := 0#4, data := 0#32 } })

/-- R61, R62: an oracle that answers a READ_BLOCK with the four bytes a WRITE_BLOCK sent makes it answer
the value written, whatever header it puts before them and whatever it adds after them. -/
def Obligations.WriteThenReadReturnsValue : Prop :=
  ∀ (s : State) (a : Byte) (v : BitVec 32) (g hdr sent extra : List Byte) (gs fs : List (List Byte))
    (rest : List IssueAnswer), Running s → ValidAddress a → hdr.length = s.cfg.hdrBytes →
    s.env.issues = .frames (g :: gs) :: .frames ((hdr ++ sent ++ extra) :: fs) :: rest →
    sent = [v.extractLsb' 0 8, v.extractLsb' 8 8, v.extractLsb' 16 8, v.extractLsb' 24 8] →
    ∃ t u, exec (.writeBlock a v) s = .next t ∧
      t.env.history = s.env.history ++
        [.issue (tunnelFlags s.cfg) s.cfg.ccWriteConfig (a :: sent) (.frames (g :: gs))] ∧
      exec (.readBlock a) t = .next u ∧ u.rsp = some { status := 0#4, data := v } ∧ u.regs.blk = v

/-! ### MBXCH (42_mailbox_channel.md) -/

/-- R161: the schedule, in closed form; for the counts the block reads it partitions the blocks 0x01 to
N into consecutive windows of at most 15. -/
def Obligations.SchedulePartitionsPayload : Prop :=
  (∀ n, schedule n = (List.range ((n + 14) / 15)).map fun i =>
    (BitVec.ofNat 8 (0x01 + 15 * i), min 15 (n - 15 * i))) ∧
  ∀ n, n ≤ 62 →
    (schedule n).length = (n + 14) / 15 ∧
    ((schedule n).map Prod.snd).sum = n ∧
    (∀ p ∈ schedule n, 1 ≤ p.2 ∧ p.2 ≤ 15 ∧ 0x01 ≤ p.1.toNat ∧ p.1.toNat + p.2 ≤ n + 1) ∧
    ∀ p ∈ (schedule n).dropLast, p.2 = 15

/-- R162: a mailbox read whose probe is whole and whose count is at most 62, chunk by chunk: the calls it
makes, the payload it assembles, and the five RX registers. -/
def Obligations.MbxReadAssemblesChunks : Prop :=
  ∀ (s : State) (tb : Byte) (f : List Byte) (fs : List (List Byte)) (chunks rest : List IssueAnswer),
    Running s → tb.toNat ≤ 62 → s.env.issues = .frames (f :: fs) :: (chunks ++ rest) →
    WholeFrame s.cfg 4 f → mailboxCount tb (frameByte s.cfg f 0) ≤ 62 →
    chunks.length = (schedule (mailboxCount tb (frameByte s.cfg f 0))).length →
    let n := mailboxCount tb (frameByte s.cfg f 0)
    let payload := chunkPayload s.cfg n chunks
    let whole := chunksWhole s.cfg n chunks
    ∃ buf : Vector Byte 248,
      buf.toList.take payload.length = payload ∧
      exec (.mbxRead tb) s = .next { s with
        regs := { s.regs with
          lastErr := 0#4
          rxHdr := frameByte s.cfg f 0
          rxBuf := buf
          rxLen := BitVec.ofNat 8 payload.length
          rxComplete := whole
          rxValid := true }
        env := after s.env (sramRead s.cfg 0x00#8 1 (.frames (f :: fs)) :: chunkCalls s.cfg n chunks)
          rest (.read ((chunkData s.cfg n chunks).getLast?.getD (some (frameBlock s.cfg f))))
        rsp := some
          { status := 0#4
            data := 0#8 ++ frameByte s.cfg f 0 ++ (0#7 ++ BitVec.ofBool whole) ++
              BitVec.ofNat 8 payload.length } }

/-- R162 corner case (a): a mailbox read that came back complete holds exactly 4 * N bytes, whole blocks
and not cut to the header's byte count. -/
def Obligations.CompleteMailboxReadIsWholeBlocks : Prop :=
  ∀ (s t : State) (tb : Byte), Running s → exec (.mbxRead tb) s = .next t → t.regs.lastErr = 0#4 →
    t.regs.rxComplete = true →
    t.regs.rxLen.toNat = 4 * mailboxCount tb t.regs.rxHdr ∧ mailboxCount tb t.regs.rxHdr ≤ 62

/-- R162, R226: the three failures of a mailbox read, in their order; the RX registers keep what they
hold. -/
def Obligations.MbxReadFailuresKeepRx : Prop :=
  ∀ (s : State) (tb : Byte), Running s →
    (62 < tb.toNat → exec (.mbxRead tb) s = .next (refused .invalidAddress 6#4 s)) ∧
    (tb.toNat ≤ 62 → EmptyAnswer s.cfg 4 (nextIssue s) →
      exec (.mbxRead tb) s = .next { s with
        regs := { s.regs with lastErr := 4#4 }
        env := after s.env [sramRead s.cfg 0x00#8 1 (nextIssue s)] s.env.issues.tail (.read none)
        log := s.log ++ [.headerReadError]
        rsp := some { status := 4#4, data := 0#32 } }) ∧
    (∀ f fs, tb = 0#8 → nextIssue s = .frames (f :: fs) → WholeFrame s.cfg 4 f →
      249 ≤ (frameByte s.cfg f 0).toNat →
      exec (.mbxRead tb) s = .next { s with
        regs := { s.regs with lastErr := 3#4 }
        env := after s.env [sramRead s.cfg 0x00#8 1 (.frames (f :: fs))] s.env.issues.tail
          (.read (some (frameBlock s.cfg f)))
        log := s.log ++ [.readError]
        rsp := some { status := 3#4, data := 0#32 } })

/-- R164: MBX_WRITE: a bad length makes no call; a failed payload write is the only call; after a
successful one the terminator FF FF FF FF goes to 0x3F, and its failure fails the operation. -/
def Obligations.MbxWritePayloadThenTerminator : Prop :=
  ∀ (s : State) (r1 r2 : IssueAnswer) (rest : List IssueAnswer) (f : List Byte)
    (fs : List (List Byte)), Running s →
    let n := s.inp.txNblk.toNat
    let payload := sramWrite s.cfg 0x00#8 n (s.inp.txData.toList.take (4 * n))
    let term := sramWrite s.cfg 0x3F#8 1 [0xFF#8, 0xFF#8, 0xFF#8, 0xFF#8]
    (n = 0 ∨ 15 < n → exec .mbxWrite s = .next (refused .invalidLength 11#4 s)) ∧
    (1 ≤ n → n ≤ 15 → s.env.issues = r1 :: rest → NoFrame r1 →
      exec .mbxWrite s = .next { s with
        regs := { s.regs with lastErr := 10#4 }
        env := after s.env [payload r1] rest (.wrote false)
        log := s.log ++ [.writeError]
        rsp := some { status := 10#4, data := 0#32 } }) ∧
    (1 ≤ n → n ≤ 15 → s.env.issues = r1 :: r2 :: rest → r1 = .frames (f :: fs) → NoFrame r2 →
      exec .mbxWrite s = .next { s with
        regs := { s.regs with lastErr := 10#4 }
        env := after s.env [payload r1, term r2] rest (.wrote false)
        log := s.log ++ [.writeError]
        rsp := some { status := 10#4, data := 0#32 } }) ∧
    (1 ≤ n → n ≤ 15 → s.env.issues = r1 :: r2 :: rest → r1 = .frames (f :: fs) → ¬NoFrame r2 →
      exec .mbxWrite s = .next { s with
        regs := { s.regs with lastErr := 0#4 }
        env := after s.env [payload r1, term r2] rest (.wrote true)
        rsp := some { status := 0#4, data := 0#32 } })

/-! ### SESSION (43_tag_session.md) -/

/-- R180: DISCOVER makes one inventory call; None makes the session absent, a UID makes it discovered,
stored exactly as returned. That a failed DISCOVER leaves the bytes of SESS_UID, which have no meaning at
SESS_UID_LEN = 0, as they were is the model's choice (log entry 17). -/
def Obligations.DiscoverOutcomes : Prop :=
  ∀ (s : State), Running s →
    (nextInventory s = .noTag →
      exec .discover s = .next { s with
        regs := { s.regs with lastErr := 1#4, sessUidLen := 0#5, sessSelected := false }
        env := { s.env with
          invs := s.env.invs.tail
          history := s.env.history ++ [.inventory .noTag]
          value := .found none }
        log := s.log ++ [.noTagFound]
        rsp := some { status := 1#4, data := 0#32 } }) ∧
    (∀ b bs, nextInventory s = .uid b bs → bs.length ≤ 15 →
      ∃ reg : Vector Byte 16, reg.toList.take (bs.length + 1) = b :: bs ∧
      exec .discover s = .next { s with
        regs := { s.regs with
          lastErr := 0#4
          sessUid := reg
          sessUidLen := BitVec.ofNat 5 (bs.length + 1)
          sessSelected := false }
        env := { s.env with
          invs := s.env.invs.tail
          history := s.env.history ++ [.inventory (.uid b bs)]
          value := .found (some (b :: bs)) }
        rsp := some { status := 0#4, data := BitVec.ofNat 32 (bs.length + 1) } })

/-- R181, R102: SELECT without a UID makes no call; with one it sends SESS_UID[0 : SESS_UID_LEN], and
only exactly one frame that is exactly [0x00] selects; anything else destroys the session. The flags byte
is ENCODE_FLAGS(OPTS_SELECT_CMD) for a parameter as R102 has it; that any other parameter is corrected to
`address` 1 and `inventory` 0 is the model's reading (log entry 8). That a failed SELECT leaves the bytes
of SESS_UID, which have no meaning at SESS_UID_LEN = 0, as they were is the model's choice (log entry
17). -/
def Obligations.SelectOutcomes : Prop :=
  ∀ (s : State), Running s →
    let call := selectCall s.cfg (s.regs.sessUid.toList.take s.regs.sessUidLen.toNat) (nextIssue s)
    (s.regs.sessUidLen = 0#5 → exec .select s = .next (refused .selectFailure 2#4 s)) ∧
    (s.regs.sessUidLen ≠ 0#5 → nextIssue s = .frames [[0x00#8]] →
      exec .select s = .next { s with
        regs := { s.regs with lastErr := 0#4, sessSelected := true }
        env := after s.env [call] s.env.issues.tail (.selected true)
        rsp := some { status := 0#4, data := 1#32 } }) ∧
    (s.regs.sessUidLen ≠ 0#5 → nextIssue s ≠ .frames [[0x00#8]] →
      exec .select s = .next { s with
        regs := { s.regs with lastErr := 2#4, sessUidLen := 0#5, sessSelected := false }
        env := after s.env [call] s.env.issues.tail (.selected false)
        log := s.log ++ [.selectFailure]
        rsp := some { status := 2#4, data := 0#32 } }) ∧
    (selectFlags s.cfg).getLsbD 5 = true ∧ (selectFlags s.cfg).getLsbD 2 = false ∧
    ((Options.ofBits s.cfg.optsSelectCmd).address = true →
      (Options.ofBits s.cfg.optsSelectCmd).inventory = false →
      selectFlags s.cfg = encodeFlags (Options.ofBits s.cfg.optsSelectCmd)) ∧
    selectFlags s.cfg = encodeFlags
      { Options.ofBits s.cfg.optsSelectCmd with address := true, inventory := false }

/-- R182: ESTABLISH is DISCOVER, then, only if it gave a UID, SELECT of exactly that UID. What the bytes of
SESS_UID hold after a failure, at SESS_UID_LEN = 0, is the model's choice (log entry 17). -/
def Obligations.EstablishOutcomes : Prop :=
  ∀ (s : State), Running s →
    (nextInventory s = .noTag →
      exec .establish s = .next { s with
        regs := { s.regs with lastErr := 1#4, sessUidLen := 0#5, sessSelected := false }
        env := { s.env with
          invs := s.env.invs.tail
          history := s.env.history ++ [.inventory .noTag]
          value := .found none }
        log := s.log ++ [.noTagFound]
        rsp := some { status := 1#4, data := 0#32 } }) ∧
    (∀ b bs r rest, nextInventory s = .uid b bs → bs.length ≤ 15 → s.env.issues = r :: rest →
      ∃ reg : Vector Byte 16, reg.toList.take (bs.length + 1) = b :: bs ∧
      (r = .frames [[0x00#8]] →
        exec .establish s = .next { s with
          regs := { s.regs with
            lastErr := 0#4
            sessUid := reg
            sessUidLen := BitVec.ofNat 5 (bs.length + 1)
            sessSelected := true }
          env := { s.env with
            invs := s.env.invs.tail
            issues := rest
            history := s.env.history ++ [.inventory (.uid b bs), selectCall s.cfg (b :: bs) r]
            value := .selected true }
          rsp := some { status := 0#4, data := 1#32 } }) ∧
      (r ≠ .frames [[0x00#8]] →
        exec .establish s = .next { s with
          regs := { s.regs with
            lastErr := 2#4
            sessUid := reg
            sessUidLen := 0#5
            sessSelected := false }
          env := { s.env with
            invs := s.env.invs.tail
            issues := rest
            history := s.env.history ++ [.inventory (.uid b bs), selectCall s.cfg (b :: bs) r]
            value := .selected false }
          log := s.log ++ [.selectFailure]
          rsp := some { status := 2#4, data := 0#32 } }))

/-- R182: after ESTABLISH the session is selected (status 0) or absent (status 1 or 2), never
discovered, whatever the transport answers. -/
def Obligations.EstablishLeavesNoPartialSession : Prop :=
  ∀ (s t : State), s.regs.halt = false → exec .establish s = .next t →
    (t.rsp = some { status := 0#4, data := 1#32 } ∧ t.regs.sessSelected = true ∧
      t.regs.sessUidLen ≠ 0#5) ∨
    ((t.rsp = some { status := 1#4, data := 0#32 } ∨ t.rsp = some { status := 2#4, data := 0#32 }) ∧
      t.regs.sessSelected = false ∧ t.regs.sessUidLen = 0#5)

/-! ### ARBITER (44_arbiter_fsm.md) -/

/-- R192: the direction decode is I2C_NFC for (0, 0x3), NFC_I2C for (1, 0x4), and Unknown for every other
pair. -/
def Obligations.DirectionDecodeTable : Prop :=
  decodeDir 0x0#8 0x3#8 = .i2cNfc ∧ decodeDir 0x1#8 0x4#8 = .nfcI2c ∧
  ∀ pt ed : Byte, (pt, ed) ≠ (0x0#8, 0x3#8) → (pt, ed) ≠ (0x1#8, 0x4#8) →
    decodeDir pt ed = .unknown

/-- R191 with LOCK_CHECK_EN = 0: two reads, 0xA1 then 0xA8, whose fields decide the direction; Unknown is
recorded and answered with status 7. -/
def Obligations.DataDirectionReadsTwoFields : Prop :=
  ∀ (s : State) (f1 f2 : List Byte) (fs1 fs2 : List (List Byte)) (rest : List IssueAnswer),
    Running s → s.inp.lockCheckEn = false →
    s.env.issues = .frames (f1 :: fs1) :: .frames (f2 :: fs2) :: rest →
    WholeFrame s.cfg 4 f1 → WholeFrame s.cfg 4 f2 →
    let d := directionCode s.cfg f1 f2
    exec .dataDirection s = .next { s with
      regs := { s.regs with lastErr := directionStatus d, blk := frameWord s.cfg f2, dir := d }
      env := after s.env
        [configRead s.cfg 0xA1#8 (.frames (f1 :: fs1)), configRead s.cfg 0xA8#8 (.frames (f2 :: fs2))]
        rest (.read (some (frameBlock s.cfg f2)))
      log := s.log ++ directionLog d
      rsp := some { status := directionStatus d, data := d.zeroExtend 32 } }

/-- R191 with LOCK_CHECK_EN = 1: the third read, of 0xA0, and a known direction whose pattern the lock
bits do not match is Locked, which is not recorded. -/
def Obligations.DataDirectionChecksLocks : Prop :=
  ∀ (s : State) (f1 f2 f3 : List Byte) (fs1 fs2 fs3 : List (List Byte)) (rest : List IssueAnswer),
    Running s → s.inp.lockCheckEn = true →
    s.env.issues = .frames (f1 :: fs1) :: .frames (f2 :: fs2) :: .frames (f3 :: fs3) :: rest →
    WholeFrame s.cfg 4 f1 → WholeFrame s.cfg 4 f2 → WholeFrame s.cfg 4 f3 →
    let d0 := directionCode s.cfg f1 f2
    let lk := frameByte s.cfg f3 1 &&& 0x03#8
    let d := if d0 = 1#2 ∧ lk ≠ s.cfg.lockPatternI2cNfc.zeroExtend 8 then 3#2
      else if d0 = 2#2 ∧ lk ≠ s.cfg.lockPatternNfcI2c.zeroExtend 8 then 3#2 else d0
    exec .dataDirection s = .next { s with
      regs := { s.regs with lastErr := directionStatus d, blk := frameWord s.cfg f3, dir := d }
      env := after s.env
        [configRead s.cfg 0xA1#8 (.frames (f1 :: fs1)), configRead s.cfg 0xA8#8 (.frames (f2 :: fs2)),
          configRead s.cfg 0xA0#8 (.frames (f3 :: fs3))]
        rest (.read (some (frameBlock s.cfg f3)))
      log := s.log ++ directionLog d
      rsp := some { status := directionStatus d, data := d.zeroExtend 32 } }

/-- R191, R226: the first read that delivers nothing ends DATA_DIRECTION with status 3; DIR is unchanged
and BLK holds the block of the last read that succeeded. -/
def Obligations.DataDirectionFailures : Prop :=
  ∀ (s : State) (r1 r2 r3 : IssueAnswer) (f1 f2 : List Byte) (fs1 fs2 : List (List Byte))
    (rest : List IssueAnswer), Running s →
    let failed (blk : BitVec 32) (cs : List Call) (left : List IssueAnswer) : State := { s with
      regs := { s.regs with lastErr := 3#4, blk := blk }
      env := after s.env cs left (.read none)
      log := s.log ++ [.readError]
      rsp := some { status := 3#4, data := 0#32 } }
    (s.env.issues = r1 :: rest → EmptyAnswer s.cfg 4 r1 →
      exec .dataDirection s = .next (failed s.regs.blk [configRead s.cfg 0xA1#8 r1] rest)) ∧
    (s.env.issues = r1 :: r2 :: rest → r1 = .frames (f1 :: fs1) → WholeFrame s.cfg 4 f1 →
      EmptyAnswer s.cfg 4 r2 →
      exec .dataDirection s = .next (failed (frameWord s.cfg f1)
        [configRead s.cfg 0xA1#8 r1, configRead s.cfg 0xA8#8 r2] rest)) ∧
    (s.inp.lockCheckEn = true → s.env.issues = r1 :: r2 :: r3 :: rest → r1 = .frames (f1 :: fs1) →
      WholeFrame s.cfg 4 f1 → r2 = .frames (f2 :: fs2) → WholeFrame s.cfg 4 f2 →
      EmptyAnswer s.cfg 4 r3 →
      exec .dataDirection s = .next (failed (frameWord s.cfg f2)
        [configRead s.cfg 0xA1#8 r1, configRead s.cfg 0xA8#8 r2, configRead s.cfg 0xA0#8 r3] rest))

/-- R190: TICK runs the handler that STATE selects, in every state; that the handler's row run alone is that
tick is the model's choice (log entry 9). -/
def Obligations.TickRunsHandlerOfState : Prop :=
  ∀ s : State, exec .tick s = exec (decodeState s.regs.state) s

/-- R193: a tick in Init is ESTABLISH; its failure stays in Init, its success records NOW in WDG_T0 and
leaves for TriggerEnergyHarvest, or for WaitI2cToNfc with EH_BOOTSTRAP_EN = 0. The row H_Init runs as
that tick: the model's choice (log entry 9). -/
def Obligations.InitTickEstablishes : Prop :=
  ∀ (s : State), Running s → s.regs.state = 0#3 → ∀ i ∈ [Instr.tick, .hInit],
    ∃ t, exec .establish s = .next t ∧
      (t.regs.lastErr ≠ 0#4 →
        exec i s = .next { t with rsp := some { status := t.regs.lastErr, data := 0#32 } }) ∧
      (t.regs.lastErr = 0#4 → exec i s = .next { t with
        regs := { t.regs with
          state := if s.inp.ehBootstrapEn then 1#3 else 2#3
          wdgT0 := s.inp.now }
        rsp := some { status := 0#4, data := if s.inp.ehBootstrapEn then 1#32 else 2#32 } })

/-- R194: a tick in TriggerEnergyHarvest is one READ_REGISTER_BIT EH_LOAD_OK (identifier 5); the masked
value 0x80 leaves for WaitI2cToNfc, anything else, a failed read included, stays. The handler's row runs
as that tick: the model's choice (log entry 9). -/
def Obligations.TriggerTickReadsLoadOk : Prop :=
  ∀ (s : State), Running s → s.regs.state = 1#3 → ∀ i ∈ [Instr.tick, .hTriggerEnergyHarvest],
    ∃ t, exec (.readRegisterBit 5#8) s = .next t ∧
      (t.rsp = some { status := 0#4, data := 0x80#32 } → exec i s = .next { t with
        regs := { t.regs with
          state := 2#3
          wdgT0 := if s.cfg.wdgReloadOnTransition then s.inp.now else s.regs.wdgT0 }
        rsp := some { status := 0#4, data := 2#32 } }) ∧
      (t.rsp ≠ some { status := 0#4, data := 0x80#32 } →
        exec i s = .next { t with rsp := some { status := t.regs.lastErr, data := 1#32 } })

/-- R195 step 1, R200, R223: in WaitI2cToNfc an elapsed time strictly above 5000 halts the block on that
tick, before any call. The handler's row runs as that tick: the model's choice (log entry 9). -/
def Obligations.WatchdogHaltsTheBlock : Prop :=
  ∀ (s : State), Running s → s.regs.state = 2#3 → 5000 < (s.inp.now - s.regs.wdgT0).toNat →
    ∀ i ∈ [Instr.tick, .hWaitI2cToNfc], exec i s = .next { s with
      regs := { s.regs with lastErr := 8#4, halt := true, exitCause := 8#4, state := 4#3 }
      log := s.log ++ [.timeout]
      rsp := some { status := 8#4, data := 0x104#32 } }

/-- R195 steps 2 to 6: without a timeout a tick in WaitI2cToNfc is DATA_DIRECTION, then
READ_REGISTER_BIT SRAM_DATA_RDY (identifier 0), then MBX_READ without operand, then a fresh
READ_REGISTER_BIT SRAM_DATA_RDY, each only if the one before allows it; it leaves for WaitNfcToI2c
exactly when all four do, and an incomplete mailbox read is recorded as ReadError. The handler's row runs
as that tick: the model's choice (log entry 9). -/
def Obligations.WaitI2cToNfcTickComposes : Prop :=
  ∀ (s : State), Running s → s.regs.state = 2#3 → (s.inp.now - s.regs.wdgT0).toNat ≤ 5000 →
    ∀ i ∈ [Instr.tick, .hWaitI2cToNfc],
    let stays (t : State) : Prop :=
      exec i s = .next { t with rsp := some { status := t.regs.lastErr, data := 2#32 } }
    ∃ t1, exec .dataDirection s = .next t1 ∧
      (t1.rsp ≠ some { status := 0#4, data := 1#32 } → stays t1) ∧
      (t1.rsp = some { status := 0#4, data := 1#32 } →
        ∃ t2, exec (.readRegisterBit 0#8) t1 = .next t2 ∧
        (t2.rsp ≠ some { status := 0#4, data := 0x20#32 } → stays t2) ∧
        (t2.rsp = some { status := 0#4, data := 0x20#32 } →
          ∃ t3, exec (.mbxRead 0#8) t2 = .next t3 ∧
          (t3.regs.lastErr ≠ 0#4 → stays t3) ∧
          (t3.regs.lastErr = 0#4 → t3.regs.rxComplete = false →
            stays { t3 with
              regs := { t3.regs with lastErr := 3#4 }
              log := t3.log ++ [.readError] }) ∧
          (t3.regs.lastErr = 0#4 → t3.regs.rxComplete = true →
            ∃ t4, exec (.readRegisterBit 0#8) t3 = .next t4 ∧
            (t4.rsp ≠ some { status := 0#4, data := 0#32 } → stays t4) ∧
            (t4.rsp = some { status := 0#4, data := 0#32 } → exec i s = .next { t4 with
              regs := { t4.regs with
                state := 3#3
                wdgT0 := if s.cfg.wdgReloadOnTransition then s.inp.now else s.regs.wdgT0 }
              rsp := some { status := 0#4, data := 3#32 } }))))

/-- R196: a tick in WaitNfcToI2c is DATA_DIRECTION, then, only with direction NFC_I2C, MBX_WRITE; it
returns to WaitI2cToNfc exactly when both allow it, and has no watchdog. The handler's row runs as that
tick: the model's choice (log entry 9). -/
def Obligations.WaitNfcToI2cTickComposes : Prop :=
  ∀ (s : State), Running s → s.regs.state = 3#3 → ∀ i ∈ [Instr.tick, .hWaitNfcToI2c],
    let stays (t : State) : Prop :=
      exec i s = .next { t with rsp := some { status := t.regs.lastErr, data := 3#32 } }
    ∃ t1, exec .dataDirection s = .next t1 ∧
      (t1.rsp ≠ some { status := 0#4, data := 2#32 } → stays t1) ∧
      (t1.rsp = some { status := 0#4, data := 2#32 } →
        ∃ t2, exec .mbxWrite t1 = .next t2 ∧
        (t2.regs.lastErr ≠ 0#4 → stays t2) ∧
        (t2.regs.lastErr = 0#4 → exec i s = .next { t2 with
          regs := { t2.regs with
            state := 2#3
            wdgT0 := if s.cfg.wdgReloadOnTransition then s.inp.now else s.regs.wdgT0 }
          rsp := some { status := 0#4, data := 2#32 } }))

/-- R197: the defensive handler, for STATE code 4 and for codes 5, 6 and 7; TICK runs it there. Its rows
run as that tick: the model's choice (log entry 9). -/
def Obligations.FatalHandlerHaltsTheBlock : Prop :=
  ∀ (s : State) (i : Instr), Running s →
    (i ∈ [.hFatal, .hFatalDefault57 false, .hFatalDefault57 true, .hFatalDefault6] ∨
      (i = .tick ∧ 4 ≤ s.regs.state.toNat)) →
    exec i s = .next { s with
      regs := { s.regs with
        lastErr := 9#4
        halt := true
        exitCause := if s.regs.exitCause = 0#4 then 9#4 else s.regs.exitCause
        state := 4#3 }
      log := s.log ++ [.fatal]
      rsp := some { status := 9#4, data := 0x104#32 } }

/-- R201: with HALT = 1 every command answers status 9 and data 0x100 | STATE after LAST_ERR <- 9 and one
LOG event Fatal; nothing else changes; and only a reset clears HALT. -/
def Obligations.HaltedBlockAnswersFatal : Prop :=
  (∀ (i : Instr) (s : State), i.format = .cmd52 → s.regs.halt = true →
    s.env.hangAt = none →
    exec i s = .next { s with
      regs := { s.regs with lastErr := 9#4 }
      log := s.log ++ [.fatal]
      rsp := some { status := 9#4, data := 0x100#32 ||| s.regs.state.zeroExtend 32 } }) ∧
  ∀ s t : State, s.regs.halt = true → (∀ rest, s.pending ≠ .reset :: rest) → step s = .next t →
    t.regs.halt = true

/-- R92: a reserved op is refused with status 12, and nothing else changes; the block is not halted. -/
def Obligations.ReservedOpRefused : Prop :=
  ∀ (s : State) (oo : BitVec 2), Running s →
    exec (.reservedOp oo) s = .next (refused .invalidOp 12#4 s)

/-- R198: a tick moves STATE along the transition table only, and reaches Fatal only by halting; no
other command writes STATE (R21), nor HALT, EXIT_CAUSE or WDG_T0 (R20). -/
def Obligations.TransitionTable : Prop :=
  ∀ (i : Instr) (s t : State), i.format = .cmd52 → s.regs.halt = false → exec i s = .next t →
    (i = .tick → (s.regs.state, t.regs.state) ∈ transitions ∧
      (t.regs.state = 4#3 ↔ t.regs.halt = true)) ∧
    (i ≠ .tick → t.regs.state = s.regs.state ∧ t.regs.halt = s.regs.halt ∧
      t.regs.exitCause = s.regs.exitCause ∧ t.regs.wdgT0 = s.regs.wdgT0)

/-- R199: the watchdog is reloaded with NOW exactly on a tick that changes STATE to a state other than
Fatal, from Init or with WDG_RELOAD_ON_TRANSITION = 1. -/
def Obligations.WatchdogReload : Prop :=
  ∀ (s t : State), exec .tick s = .next t →
    t.regs.wdgT0 =
      if t.regs.state ≠ s.regs.state ∧ t.regs.state ≠ 4#3 ∧
          (s.regs.state = 0#3 ∨ s.cfg.wdgReloadOnTransition = true)
      then s.inp.now else s.regs.wdgT0

/-- R203: the bounds on the transport calls of one tick. -/
def Obligations.TickCallsBounded : Prop :=
  ∀ (s t : State), exec .tick s = .next t →
    t.env.history.length ≤
      s.env.history.length + tickCallBound s.regs.state s.inp.lockCheckEn

/-- R146, R202: the only addresses that reach the transport from a TICK, and no configuration write. -/
def Obligations.TickCallsNamedAddressesOnly : Prop :=
  ∀ (s t : State), exec .tick s = .next t →
    ∃ new, t.env.history = s.env.history ++ new ∧ ∀ c ∈ new, TickCall s.cfg c

/-- R183: once Init has been left no TICK writes the session registers. -/
def Obligations.TickKeepsSessionAfterInit : Prop :=
  ∀ (s t : State), s.regs.state ≠ 0#3 → exec .tick s = .next t →
    t.regs.sessUid = s.regs.sessUid ∧ t.regs.sessUidLen = s.regs.sessUidLen ∧
      t.regs.sessSelected = s.regs.sessSelected

/-- R225, R190: a TICK records at most one kind, which is then its status; a tick that recorded one
either kept STATE or halted. -/
def Obligations.TickRecordsAtMostOneKind : Prop :=
  ∀ (s t : State), exec .tick s = .next t →
    (t.log = s.log ∧ t.regs.lastErr = 0#4) ∨
    ∃ k : Kind, t.log = s.log ++ [k] ∧ t.regs.lastErr = k.code ∧
      (t.regs.state = s.regs.state ∨ t.regs.halt = true)

/-! ### The transport frames (R97 to R103) -/

/-- R98, R100, R11: the two reading frames: one call with the frame's request, whose flags byte is
ENCODE_FLAGS(OPTS_TUNNEL), and the payload of the first frame, if it is long enough, delivered. That a
count outside 1 to 15 is refused, and that the rows run alone on a halted block change nothing, is the
model's choice (log entry 11). -/
def Obligations.ReadFramesDeliverPayload : Prop :=
  ∀ (s : State) (a : Byte) (n : Nat),
    tunnelFlags s.cfg = encodeFlags (Options.ofBits s.cfg.optsTunnel) ∧
    (Running s → ∀ f fs, nextIssue s = .frames (f :: fs) → WholeFrame s.cfg 4 f →
      exec (.tReadConfig a) s = .next { s with
        env := after s.env [configRead s.cfg a (nextIssue s)] s.env.issues.tail
          (.read (some (frameBlock s.cfg f))) }) ∧
    (Running s → EmptyAnswer s.cfg 4 (nextIssue s) →
      exec (.tReadConfig a) s = .next { s with
        env := after s.env [configRead s.cfg a (nextIssue s)] s.env.issues.tail (.read none) }) ∧
    (Running s → 1 ≤ n → n ≤ 15 →
      ∀ f fs, nextIssue s = .frames (f :: fs) → WholeFrame s.cfg (4 * n) f →
      exec (.tReadSram a n) s = .next { s with
        env := after s.env [sramRead s.cfg a n (nextIssue s)] s.env.issues.tail
          (.read (some ((List.range (4 * n)).map (frameByte s.cfg f)))) }) ∧
    (Running s → 1 ≤ n → n ≤ 15 → EmptyAnswer s.cfg (4 * n) (nextIssue s) →
      exec (.tReadSram a n) s = .next { s with
        env := after s.env [sramRead s.cfg a n (nextIssue s)] s.env.issues.tail (.read none) }) ∧
    (n = 0 ∨ 15 < n → exec (.tReadSram a n) s = .refused .malformedFrame) ∧
    (StoppedBlock s → exec (.tReadConfig a) s = .next s ∧
      (1 ≤ n → n ≤ 15 → exec (.tReadSram a n) s = .next s))

/-- R99, R101, R11: the two writing frames: one call with the frame's request, whose flags byte is
ENCODE_FLAGS(OPTS_TUNNEL), success exactly when a frame came back. That data of other than 1 to 15 whole
blocks is refused, and that the rows run alone on a halted block change nothing, is the model's choice
(log entry 11). -/
def Obligations.WriteFramesTestForAFrame : Prop :=
  ∀ (s : State) (a : Byte) (v : BitVec 32) (n : Nat) (d : List Byte) (ok : Bool),
    (ok = false ↔ NoFrame (nextIssue s)) →
    tunnelFlags s.cfg = encodeFlags (Options.ofBits s.cfg.optsTunnel) ∧
    (Running s → exec (.tWriteConfig a v) s = .next { s with
      env := after s.env [configWrite s.cfg a v (nextIssue s)] s.env.issues.tail (.wrote ok) }) ∧
    (Running s → 1 ≤ n → n ≤ 15 → d.length = 4 * n →
      exec (.tWriteSram a d) s = .next { s with
        env := after s.env [sramWrite s.cfg a n d (nextIssue s)] s.env.issues.tail (.wrote ok) }) ∧
    ((∀ m, 1 ≤ m → m ≤ 15 → d.length ≠ 4 * m) →
      exec (.tWriteSram a d) s = .refused .malformedFrame) ∧
    (StoppedBlock s → exec (.tWriteConfig a v) s = .next s ∧
      (1 ≤ n → n ≤ 15 → d.length = 4 * n → exec (.tWriteSram a d) s = .next s))

/-- R102, R103: the select frame, whose payload is the session's UID, and the inventory call. What the
rows leave when they run alone, and that on a halted block they change nothing, is the model's choice
(log entries 11 and 12). -/
def Obligations.SelectAndInventoryFrames : Prop :=
  ∀ (s : State) (ok : Bool),
    (Running s → (ok = true ↔ nextIssue s = .frames [[0x00#8]]) →
      exec .tSelect s = .next { s with
        env := after s.env
          [selectCall s.cfg (s.regs.sessUid.toList.take s.regs.sessUidLen.toNat) (nextIssue s)]
          s.env.issues.tail (.selected ok) }) ∧
    (Running s → ∀ u, (nextInventory s = .noTag ∧ u = none) ∨
        (∃ b bs, nextInventory s = .uid b bs ∧ bs.length ≤ 15 ∧ u = some (b :: bs)) →
      exec .tInventory s = .next { s with
        env := { s.env with
          invs := s.env.invs.tail
          history := s.env.history ++ [.inventory (nextInventory s)]
          value := .found u } }) ∧
    (StoppedBlock s → exec .tSelect s = .next s ∧ exec .tInventory s = .next s)

/-! ### The whole machine -/

/-- R4, R252, R96, R250: one step takes the host's next event: a command word is decoded and run with
its inputs, an option vector reaches FLAGENC, a reset gives every register its reset value, and with
no event the block holds everything. That the events are a list in the state, what a reset gives the
registers R43 leaves unspecified, and what it does to the records are the model's choices (log entries 5,
1 and 14). -/
def Obligations.StepRunsDecodedInstruction : Prop :=
  (∀ (s : State) (inp : Inputs) (w : BitVec 52) (rest : List HostEvent) (i : Instr),
    s.pending = .command inp w :: rest → decode s.cfg (.cmd w) = .ok i →
    step s = exec i { s with inp := inp, pending := rest }) ∧
  (∀ (s : State) (v : BitVec 9) (rest : List HostEvent) (i : Instr),
    s.pending = .options v :: rest → decode s.cfg (.opts v) = .ok i →
    step s = exec i { s with pending := rest }) ∧
  (∀ (s : State) (rest : List HostEvent), s.pending = .reset :: rest →
    step s = .next { s with regs := State.reset.regs, rsp := none, pending := rest }) ∧
  (∀ (s : State), s.pending = [] → step s = .next s)

/-- R250, R43: reset gives STATE, the session, HALT, EXIT_CAUSE, LAST_ERR, RX_VALID and DIR their reset
values, in State.reset and after a reset event, which also gives the registers R43 leaves unspecified the
model's value (log entry 1); it makes no transport call and leaves the tag alone. That the history of
calls and the other records of the transport stand after a reset event, of which the spec says nothing,
is the model's choice (log entry 14). -/
def Obligations.ResetValues : Prop :=
  (∀ (s : State) (rest : List HostEvent), s.pending = .reset :: rest →
    ∃ t, step s = .next t ∧ t.regs = State.reset.regs ∧ t.env = s.env ∧ t.cfg = s.cfg ∧
      t.pending = rest) ∧
  State.reset.regs.state = 0#3 ∧ State.reset.regs.sessUidLen = 0#5 ∧
  State.reset.regs.sessSelected = false ∧ State.reset.regs.halt = false ∧
  State.reset.regs.exitCause = 0#4 ∧ State.reset.regs.lastErr = 0#4 ∧
  State.reset.regs.rxValid = false ∧ State.reset.regs.dir = 0#2 ∧ State.reset.env.history = []

/-- The invariants hold at reset. The clauses on RX_LEN rest there on the model's reset value (log entry 1),
and that the five command codes differ rests on the default codes, which are presumed (log entry 7): both
are the model's choices. -/
def Obligations.ResetIsSound : Prop :=
  SoundRegs State.reset.regs ∧ DisciplinedHistory State.reset.cfg State.reset.env.history ∧
    State.reset.cfg.CodesDistinct

/-- R21, R22, R24, R27: every step from a state whose registers are sound leads to one whose registers
are. After a reset, which R43 lets leave any RX_LEN, the two clauses on RX_LEN hold by the model's choice
of its reset value (log entry 1). -/
def Obligations.StepKeepsRegsSound : Prop :=
  ∀ s t : State, SoundRegs s.regs → step s = .next t → SoundRegs t.regs

/-- R253, R254: every step extends a disciplined history to a disciplined one: no SRAM read of more than
15 blocks, no terminator without a successful payload write just before it. -/
def Obligations.StepKeepsHistoryDisciplined : Prop :=
  ∀ s t : State, s.cfg.CodesDistinct → DisciplinedHistory s.cfg s.env.history → step s = .next t →
    DisciplinedHistory t.cfg t.env.history

/-- R72, R232, R32: a step only appends to the history of calls and to the LOG, and never changes the
configuration. That a reset keeps the history and the LOG, of which the spec says nothing, is the model's
choice (log entry 14). -/
def Obligations.StepExtendsRecords : Prop :=
  ∀ s t : State, step s = .next t →
    s.env.history <+: t.env.history ∧ s.log <+: t.log ∧ t.cfg = s.cfg

/-- R25: after a command LAST_ERR holds the code of the last kind recorded during it, or 0; the status is
LAST_ERR, but for a WRITE_BLOCK that recorded WriteError, which answers 0. -/
def Obligations.StatusIsLastErr : Prop :=
  ∀ (i : Instr) (s t : State), i.format = .cmd52 → exec i s = .next t →
    (∃ ks, t.log = s.log ++ ks ∧
      t.regs.lastErr = match ks.getLast? with | none => 0#4 | some k => k.code) ∧
    (¬((∃ a w, i = .writeBlock a w) ∧ t.regs.lastErr = 10#4) →
      ∃ d, t.rsp = some { status := t.regs.lastErr, data := d }) ∧
    ((∃ a w, i = .writeBlock a w) ∧ t.regs.lastErr = 10#4 →
      ∃ d, t.rsp = some { status := 0#4, data := d })

/-- R24: while HALT = 1, every step but a reset changes no register but LAST_ERR and makes no transport
call. -/
def Obligations.HaltedUntilReset : Prop :=
  ∀ s t : State, s.regs.halt = true → (∀ rest, s.pending ≠ .reset :: rest) → step s = .next t →
    t.regs = { s.regs with lastErr := t.regs.lastErr } ∧ t.env = s.env

/-- Every well-formed instruction completes in every state whose transport answers; where call number k
never returns (R203, U2; log entry 3), an instruction that would make it faults, and one that ends before
it answers what it answers without the hang; the only refusal is a frame outside its format (log entry
11). -/
def Obligations.WellFormedInstructionsComplete : Prop :=
  ∀ (i : Instr) (s : State),
    (wellFormed i = true → s.env.hangAt = none → ∃ t, exec i s = .next t) ∧
    (wellFormed i = false → exec i s = .refused .malformedFrame) ∧
    (∀ e, exec i s = .fault e → ∃ k, s.env.hangAt = some k) ∧
    ∀ k t, s.env.hangAt = some k → s.env.history.length ≤ k →
      exec i (hanging none s) = .next t →
      (k < t.env.history.length → exec i s = .fault .transportHang) ∧
      (t.env.history.length ≤ k → exec i s = .next (hanging (some k) t))

/-- R20: each command but TICK writes only the registers the table lists it for, and LAST_ERR. -/
def Obligations.CommandsWriteTheirRegistersOnly : Prop :=
  ∀ (s t : State),
    (∀ i, (∃ a b, i ∈ [Instr.readBlock a, .readByte a b, .readRegisterBit a, .readConfigBit a]) →
      exec i s = .next t → SameInputs s t ∧
        t.regs = { s.regs with lastErr := t.regs.lastErr, blk := t.regs.blk }) ∧
    (∀ i, (∃ a w oo, i ∈ [Instr.writeBlock a w, .mbxWrite, .reservedOp oo]) →
      exec i s = .next t → SameInputs s t ∧ t.regs = { s.regs with lastErr := t.regs.lastErr }) ∧
    (∀ b, exec (.mbxRead b) s = .next t → SameInputs s t ∧
      t.regs = { s.regs with
        lastErr := t.regs.lastErr, rxHdr := t.regs.rxHdr, rxBuf := t.regs.rxBuf,
        rxLen := t.regs.rxLen, rxComplete := t.regs.rxComplete, rxValid := t.regs.rxValid }) ∧
    (∀ i ∈ [Instr.discover, .select, .establish], exec i s = .next t → SameInputs s t ∧
      t.regs = { s.regs with
        lastErr := t.regs.lastErr, sessUid := t.regs.sessUid, sessUidLen := t.regs.sessUidLen,
        sessSelected := t.regs.sessSelected }) ∧
    (exec .dataDirection s = .next t → SameInputs s t ∧
      t.regs = { s.regs with
        lastErr := t.regs.lastErr, blk := t.regs.blk, dir := t.regs.dir })
end

