-- ==== Sys2Proof/Laws/Flags.lean ====
section
/-! SUPPORT. The option vector and its nine options are the same thing (30_encoding.md R96). -/

namespace Sys2Proof

@[simp] theorem Options.ofBits_toBits (o : Options) : Options.ofBits o.toBits = o := by
  obtain ⟨a, b, c, d, e, f, g, h, i⟩ := o
  revert a b c d e f g h i
  decide

@[simp] theorem Options.toBits_ofBits (v : BitVec 9) : (Options.ofBits v).toBits = v := by
  revert v
  decide +kernel

end Sys2Proof
end

