-- ==== Sys2Proof/Laws/State.lean ====
section
/-! SUPPORT. One lemma per field of State per named update, true by rfl and in the simp set, so that no
proof unfolds a record update. -/

namespace Sys2Proof.Machine

variable (s : State)

/-! #### setState -/

@[simp] theorem setState_regs (v : BitVec 3) :
    (setState v s).regs =
      { s.regs with state := v } := rfl
@[simp] theorem setState_inp (v : BitVec 3) : (setState v s).inp = s.inp := rfl
@[simp] theorem setState_feOpts (v : BitVec 3) : (setState v s).feOpts = s.feOpts := rfl
@[simp] theorem setState_cfg (v : BitVec 3) : (setState v s).cfg = s.cfg := rfl
@[simp] theorem setState_pending (v : BitVec 3) : (setState v s).pending = s.pending := rfl
@[simp] theorem setState_env (v : BitVec 3) : (setState v s).env = s.env := rfl
@[simp] theorem setState_rsp (v : BitVec 3) : (setState v s).rsp = s.rsp := rfl
@[simp] theorem setState_log (v : BitVec 3) : (setState v s).log = s.log := rfl

/-! #### setLastErr -/

@[simp] theorem setLastErr_regs (v : BitVec 4) :
    (setLastErr v s).regs =
      { s.regs with lastErr := v } := rfl
@[simp] theorem setLastErr_inp (v : BitVec 4) : (setLastErr v s).inp = s.inp := rfl
@[simp] theorem setLastErr_feOpts (v : BitVec 4) : (setLastErr v s).feOpts = s.feOpts := rfl
@[simp] theorem setLastErr_cfg (v : BitVec 4) : (setLastErr v s).cfg = s.cfg := rfl
@[simp] theorem setLastErr_pending (v : BitVec 4) : (setLastErr v s).pending = s.pending := rfl
@[simp] theorem setLastErr_env (v : BitVec 4) : (setLastErr v s).env = s.env := rfl
@[simp] theorem setLastErr_rsp (v : BitVec 4) : (setLastErr v s).rsp = s.rsp := rfl
@[simp] theorem setLastErr_log (v : BitVec 4) : (setLastErr v s).log = s.log := rfl

/-! #### setWdgT0 -/

@[simp] theorem setWdgT0_regs (v : BitVec 32) :
    (setWdgT0 v s).regs =
      { s.regs with wdgT0 := v } := rfl
@[simp] theorem setWdgT0_inp (v : BitVec 32) : (setWdgT0 v s).inp = s.inp := rfl
@[simp] theorem setWdgT0_feOpts (v : BitVec 32) : (setWdgT0 v s).feOpts = s.feOpts := rfl
@[simp] theorem setWdgT0_cfg (v : BitVec 32) : (setWdgT0 v s).cfg = s.cfg := rfl
@[simp] theorem setWdgT0_pending (v : BitVec 32) : (setWdgT0 v s).pending = s.pending := rfl
@[simp] theorem setWdgT0_env (v : BitVec 32) : (setWdgT0 v s).env = s.env := rfl
@[simp] theorem setWdgT0_rsp (v : BitVec 32) : (setWdgT0 v s).rsp = s.rsp := rfl
@[simp] theorem setWdgT0_log (v : BitVec 32) : (setWdgT0 v s).log = s.log := rfl

/-! #### setBlk -/

@[simp] theorem setBlk_regs (v : BitVec 32) : (setBlk v s).regs = { s.regs with blk := v } := rfl
@[simp] theorem setBlk_inp (v : BitVec 32) : (setBlk v s).inp = s.inp := rfl
@[simp] theorem setBlk_feOpts (v : BitVec 32) : (setBlk v s).feOpts = s.feOpts := rfl
@[simp] theorem setBlk_cfg (v : BitVec 32) : (setBlk v s).cfg = s.cfg := rfl
@[simp] theorem setBlk_pending (v : BitVec 32) : (setBlk v s).pending = s.pending := rfl
@[simp] theorem setBlk_env (v : BitVec 32) : (setBlk v s).env = s.env := rfl
@[simp] theorem setBlk_rsp (v : BitVec 32) : (setBlk v s).rsp = s.rsp := rfl
@[simp] theorem setBlk_log (v : BitVec 32) : (setBlk v s).log = s.log := rfl

/-! #### setDir -/

@[simp] theorem setDir_regs (v : BitVec 2) : (setDir v s).regs = { s.regs with dir := v } := rfl
@[simp] theorem setDir_inp (v : BitVec 2) : (setDir v s).inp = s.inp := rfl
@[simp] theorem setDir_feOpts (v : BitVec 2) : (setDir v s).feOpts = s.feOpts := rfl
@[simp] theorem setDir_cfg (v : BitVec 2) : (setDir v s).cfg = s.cfg := rfl
@[simp] theorem setDir_pending (v : BitVec 2) : (setDir v s).pending = s.pending := rfl
@[simp] theorem setDir_env (v : BitVec 2) : (setDir v s).env = s.env := rfl
@[simp] theorem setDir_rsp (v : BitVec 2) : (setDir v s).rsp = s.rsp := rfl
@[simp] theorem setDir_log (v : BitVec 2) : (setDir v s).log = s.log := rfl

/-! #### setExitCause -/

@[simp] theorem setExitCause_regs (v : BitVec 4) :
    (setExitCause v s).regs =
      { s.regs with exitCause := v } := rfl
@[simp] theorem setExitCause_inp (v : BitVec 4) : (setExitCause v s).inp = s.inp := rfl
@[simp] theorem setExitCause_feOpts (v : BitVec 4) : (setExitCause v s).feOpts = s.feOpts := rfl
@[simp] theorem setExitCause_cfg (v : BitVec 4) : (setExitCause v s).cfg = s.cfg := rfl
@[simp] theorem setExitCause_pending (v : BitVec 4) : (setExitCause v s).pending = s.pending := rfl
@[simp] theorem setExitCause_env (v : BitVec 4) : (setExitCause v s).env = s.env := rfl
@[simp] theorem setExitCause_rsp (v : BitVec 4) : (setExitCause v s).rsp = s.rsp := rfl
@[simp] theorem setExitCause_log (v : BitVec 4) : (setExitCause v s).log = s.log := rfl

/-! #### setHalt -/

@[simp] theorem setHalt_regs : (setHalt s).regs = { s.regs with halt := true } := rfl
@[simp] theorem setHalt_inp : (setHalt s).inp = s.inp := rfl
@[simp] theorem setHalt_feOpts : (setHalt s).feOpts = s.feOpts := rfl
@[simp] theorem setHalt_cfg : (setHalt s).cfg = s.cfg := rfl
@[simp] theorem setHalt_pending : (setHalt s).pending = s.pending := rfl
@[simp] theorem setHalt_env : (setHalt s).env = s.env := rfl
@[simp] theorem setHalt_rsp : (setHalt s).rsp = s.rsp := rfl
@[simp] theorem setHalt_log : (setHalt s).log = s.log := rfl

/-! #### clearSession -/

@[simp] theorem clearSession_regs :
    (clearSession s).regs =
      { s.regs with sessUidLen := 0#5, sessSelected := false } := rfl
@[simp] theorem clearSession_inp : (clearSession s).inp = s.inp := rfl
@[simp] theorem clearSession_feOpts : (clearSession s).feOpts = s.feOpts := rfl
@[simp] theorem clearSession_cfg : (clearSession s).cfg = s.cfg := rfl
@[simp] theorem clearSession_pending : (clearSession s).pending = s.pending := rfl
@[simp] theorem clearSession_env : (clearSession s).env = s.env := rfl
@[simp] theorem clearSession_rsp : (clearSession s).rsp = s.rsp := rfl
@[simp] theorem clearSession_log : (clearSession s).log = s.log := rfl

/-! #### setDiscovered -/

@[simp] theorem setDiscovered_regs (u : List Byte) :
    (setDiscovered u s).regs =
      { s.regs with
        sessUid := overlay u (Config.freeByte s.env.history.length)
        sessUidLen := BitVec.ofNat 5 u.length
        sessSelected := false } := rfl
@[simp] theorem setDiscovered_inp (u : List Byte) : (setDiscovered u s).inp = s.inp := rfl
@[simp] theorem setDiscovered_feOpts (u : List Byte) : (setDiscovered u s).feOpts = s.feOpts := rfl
@[simp] theorem setDiscovered_cfg (u : List Byte) : (setDiscovered u s).cfg = s.cfg := rfl
@[simp] theorem setDiscovered_pending (u : List Byte) :
    (setDiscovered u s).pending =
      s.pending := rfl
@[simp] theorem setDiscovered_env (u : List Byte) : (setDiscovered u s).env = s.env := rfl
@[simp] theorem setDiscovered_rsp (u : List Byte) : (setDiscovered u s).rsp = s.rsp := rfl
@[simp] theorem setDiscovered_log (u : List Byte) : (setDiscovered u s).log = s.log := rfl

/-! #### setSelected -/

@[simp] theorem setSelected_regs :
    (setSelected s).regs =
      { s.regs with sessSelected := true } := rfl
@[simp] theorem setSelected_inp : (setSelected s).inp = s.inp := rfl
@[simp] theorem setSelected_feOpts : (setSelected s).feOpts = s.feOpts := rfl
@[simp] theorem setSelected_cfg : (setSelected s).cfg = s.cfg := rfl
@[simp] theorem setSelected_pending : (setSelected s).pending = s.pending := rfl
@[simp] theorem setSelected_env : (setSelected s).env = s.env := rfl
@[simp] theorem setSelected_rsp : (setSelected s).rsp = s.rsp := rfl
@[simp] theorem setSelected_log : (setSelected s).log = s.log := rfl

/-! #### setRx -/

@[simp] theorem setRx_regs (h : Byte) (p : List Byte) (c : Bool) :
    (setRx h p c s).regs =
      { s.regs with
        rxHdr := h
        rxBuf := overlay p (Config.freeByte s.env.history.length)
        rxLen := BitVec.ofNat 8 p.length
        rxComplete := c
        rxValid := true } := rfl
@[simp] theorem setRx_inp (h : Byte) (p : List Byte) (c : Bool) :
    (setRx h p c s).inp =
      s.inp := rfl
@[simp] theorem setRx_feOpts (h : Byte) (p : List Byte) (c : Bool) :
    (setRx h p c s).feOpts =
      s.feOpts := rfl
@[simp] theorem setRx_cfg (h : Byte) (p : List Byte) (c : Bool) :
    (setRx h p c s).cfg =
      s.cfg := rfl
@[simp] theorem setRx_pending (h : Byte) (p : List Byte) (c : Bool) :
    (setRx h p c s).pending =
      s.pending := rfl
@[simp] theorem setRx_env (h : Byte) (p : List Byte) (c : Bool) :
    (setRx h p c s).env =
      s.env := rfl
@[simp] theorem setRx_rsp (h : Byte) (p : List Byte) (c : Bool) :
    (setRx h p c s).rsp =
      s.rsp := rfl
@[simp] theorem setRx_log (h : Byte) (p : List Byte) (c : Bool) :
    (setRx h p c s).log =
      s.log := rfl

/-! #### setFeOpts -/

@[simp] theorem setFeOpts_regs (v : BitVec 9) : (setFeOpts v s).regs = s.regs := rfl
@[simp] theorem setFeOpts_inp (v : BitVec 9) : (setFeOpts v s).inp = s.inp := rfl
@[simp] theorem setFeOpts_feOpts (v : BitVec 9) : (setFeOpts v s).feOpts = v := rfl
@[simp] theorem setFeOpts_cfg (v : BitVec 9) : (setFeOpts v s).cfg = s.cfg := rfl
@[simp] theorem setFeOpts_pending (v : BitVec 9) : (setFeOpts v s).pending = s.pending := rfl
@[simp] theorem setFeOpts_env (v : BitVec 9) : (setFeOpts v s).env = s.env := rfl
@[simp] theorem setFeOpts_rsp (v : BitVec 9) : (setFeOpts v s).rsp = s.rsp := rfl
@[simp] theorem setFeOpts_log (v : BitVec 9) : (setFeOpts v s).log = s.log := rfl

/-! #### record -/

@[simp] theorem record_regs (k : Kind) :
    (record k s).regs =
      { s.regs with lastErr := k.code } := rfl
@[simp] theorem record_inp (k : Kind) : (record k s).inp = s.inp := rfl
@[simp] theorem record_feOpts (k : Kind) : (record k s).feOpts = s.feOpts := rfl
@[simp] theorem record_cfg (k : Kind) : (record k s).cfg = s.cfg := rfl
@[simp] theorem record_pending (k : Kind) : (record k s).pending = s.pending := rfl
@[simp] theorem record_env (k : Kind) : (record k s).env = s.env := rfl
@[simp] theorem record_rsp (k : Kind) : (record k s).rsp = s.rsp := rfl
@[simp] theorem record_log (k : Kind) : (record k s).log = s.log ++ [k] := rfl

/-! #### respond -/

@[simp] theorem respond_regs (st : BitVec 4) (d : BitVec 32) :
    (respond st d s).regs =
      s.regs := rfl
@[simp] theorem respond_inp (st : BitVec 4) (d : BitVec 32) : (respond st d s).inp = s.inp := rfl
@[simp] theorem respond_feOpts (st : BitVec 4) (d : BitVec 32) :
    (respond st d s).feOpts =
      s.feOpts := rfl
@[simp] theorem respond_cfg (st : BitVec 4) (d : BitVec 32) : (respond st d s).cfg = s.cfg := rfl
@[simp] theorem respond_pending (st : BitVec 4) (d : BitVec 32) :
    (respond st d s).pending =
      s.pending := rfl
@[simp] theorem respond_env (st : BitVec 4) (d : BitVec 32) : (respond st d s).env = s.env := rfl
@[simp] theorem respond_rsp (st : BitVec 4) (d : BitVec 32) :
    (respond st d s).rsp =
      some { status := st, data := d } := rfl
@[simp] theorem respond_log (st : BitVec 4) (d : BitVec 32) : (respond st d s).log = s.log := rfl

/-! #### respondErr -/

@[simp] theorem respondErr_regs (d : BitVec 32) : (respondErr d s).regs = s.regs := rfl
@[simp] theorem respondErr_inp (d : BitVec 32) : (respondErr d s).inp = s.inp := rfl
@[simp] theorem respondErr_feOpts (d : BitVec 32) : (respondErr d s).feOpts = s.feOpts := rfl
@[simp] theorem respondErr_cfg (d : BitVec 32) : (respondErr d s).cfg = s.cfg := rfl
@[simp] theorem respondErr_pending (d : BitVec 32) : (respondErr d s).pending = s.pending := rfl
@[simp] theorem respondErr_env (d : BitVec 32) : (respondErr d s).env = s.env := rfl
@[simp] theorem respondErr_rsp (d : BitVec 32) :
    (respondErr d s).rsp =
      some { status := s.regs.lastErr, data := d } := rfl
@[simp] theorem respondErr_log (d : BitVec 32) : (respondErr d s).log = s.log := rfl

/-! #### applyReset -/

@[simp] theorem applyReset_regs : (applyReset s).regs = Regs.reset := rfl
@[simp] theorem applyReset_inp : (applyReset s).inp = s.inp := rfl
@[simp] theorem applyReset_feOpts : (applyReset s).feOpts = s.feOpts := rfl
@[simp] theorem applyReset_cfg : (applyReset s).cfg = s.cfg := rfl
@[simp] theorem applyReset_pending : (applyReset s).pending = s.pending := rfl
@[simp] theorem applyReset_env : (applyReset s).env = s.env := rfl
@[simp] theorem applyReset_rsp : (applyReset s).rsp = none := rfl
@[simp] theorem applyReset_log : (applyReset s).log = s.log := rfl

/-! #### afterIssue -/

@[simp] theorem afterIssue_regs (fl cc : Byte) (p : List Byte) (r : IssueAnswer) (v : FrameValue) :
    (afterIssue fl cc p r v s).regs =
      s.regs := rfl
@[simp] theorem afterIssue_inp (fl cc : Byte) (p : List Byte) (r : IssueAnswer) (v : FrameValue) :
    (afterIssue fl cc p r v s).inp =
      s.inp := rfl
@[simp] theorem afterIssue_feOpts (fl cc : Byte) (p : List Byte) (r : IssueAnswer) (v : FrameValue) :
    (afterIssue fl cc p r v s).feOpts =
      s.feOpts := rfl
@[simp] theorem afterIssue_cfg (fl cc : Byte) (p : List Byte) (r : IssueAnswer) (v : FrameValue) :
    (afterIssue fl cc p r v s).cfg =
      s.cfg := rfl
@[simp] theorem afterIssue_pending (fl cc : Byte) (p : List Byte) (r : IssueAnswer) (v : FrameValue) :
    (afterIssue fl cc p r v s).pending =
      s.pending := rfl
@[simp] theorem afterIssue_env (fl cc : Byte) (p : List Byte) (r : IssueAnswer) (v : FrameValue) :
    (afterIssue fl cc p r v s).env =
      { s.env with
        issues := s.env.issues.tail
        history := s.env.history ++ [.issue fl cc p r]
        value := v } := rfl
@[simp] theorem afterIssue_rsp (fl cc : Byte) (p : List Byte) (r : IssueAnswer) (v : FrameValue) :
    (afterIssue fl cc p r v s).rsp =
      s.rsp := rfl
@[simp] theorem afterIssue_log (fl cc : Byte) (p : List Byte) (r : IssueAnswer) (v : FrameValue) :
    (afterIssue fl cc p r v s).log =
      s.log := rfl

/-! #### afterInventory -/

@[simp] theorem afterInventory_regs (r : InvAnswer) : (afterInventory r s).regs = s.regs := rfl
@[simp] theorem afterInventory_inp (r : InvAnswer) : (afterInventory r s).inp = s.inp := rfl
@[simp] theorem afterInventory_feOpts (r : InvAnswer) :
    (afterInventory r s).feOpts =
      s.feOpts := rfl
@[simp] theorem afterInventory_cfg (r : InvAnswer) : (afterInventory r s).cfg = s.cfg := rfl
@[simp] theorem afterInventory_pending (r : InvAnswer) :
    (afterInventory r s).pending =
      s.pending := rfl
@[simp] theorem afterInventory_env (r : InvAnswer) :
    (afterInventory r s).env =
      { s.env with
        invs := s.env.invs.tail
        history := s.env.history ++ [.inventory r]
        value := .found (uidOfAnswer r) } := rfl
@[simp] theorem afterInventory_rsp (r : InvAnswer) : (afterInventory r s).rsp = s.rsp := rfl
@[simp] theorem afterInventory_log (r : InvAnswer) : (afterInventory r s).log = s.log := rfl

end Sys2Proof.Machine
end

