-- ==== Sys2Proof/Laws/Ops.lean ====
section
/-! SUPPORT. What each shared operation can do, said once: the outcomes of a command, the frames, and
the inversion of every operation the meanings are built from. -/

namespace Sys2Proof.Machine

/-! ### The outcome of a command -/

theorem complete_of_noHang {s : State} (h : s.env.hangAt = none) (t : State) :
    complete s t = .next t := by simp [complete, h]

theorem complete_next {s t u : State} (h : complete s t = .next u) : t = u := by
  unfold complete at h
  split at h
  · exact Host.Outcome.next.inj h
  · split at h
    · exact Host.Outcome.next.inj h
    · cases h

theorem complete_cases (s t : State) :
    complete s t = .next t ∨
      (∃ k, s.env.hangAt = some k ∧ k < t.env.history.length ∧
        complete s t = .fault .transportHang) := by
  unfold complete
  split
  · exact .inl rfl
  · rename_i k hk
    split
    · exact .inl rfl
    · exact .inr ⟨k, hk, by omega, rfl⟩

theorem command_running {s : State} (h : s.regs.halt = false) (body : State → State) :
    command body s = complete s (body (setLastErr 0#4 s)) := by simp [command, h]

theorem command_halted {s : State} (h : s.regs.halt = true) (body : State → State) :
    command body s = complete s (answerHalted s) := by simp [command, h]

/-- A command of a running block whose transport answers every call is its body. -/
theorem command_of_running {s : State} (h : s.regs.halt = false) (hh : s.env.hangAt = none)
    (body : State → State) : command body s = .next (body (setLastErr 0#4 s)) := by
  rw [command_running h, complete_of_noHang hh]

/-- Everything a command can do: the halted answer, its body, or the hang. -/
theorem command_next {body : State → State} {s t : State} (h : command body s = .next t) :
    (s.regs.halt = true ∧ t = answerHalted s) ∨
      (s.regs.halt = false ∧ t = body (setLastErr 0#4 s)) := by
  cases hh : s.regs.halt with
  | true => rw [command_halted hh] at h; exact .inl ⟨rfl, (complete_next h).symm⟩
  | false => rw [command_running hh] at h; exact .inr ⟨rfl, (complete_next h).symm⟩

theorem frameRow_next {α : Type} {f : State → α × State} {s t : State}
    (h : frameRow f s = .next t) :
    (s.regs.halt = true ∧ t = s) ∨ (s.regs.halt = false ∧ t = (f s).2) := by
  have := complete_next h
  cases hh : s.regs.halt <;> simp [hh] at this <;> simp [this]

/-! ### The frames -/

theorem tReadConfig_eq (a : Byte) (s : State) :
    tReadConfig a s =
      (readPayload s.cfg.hdrBytes 4 (nextIssue s),
        afterIssue (tunnelFlags s.cfg) s.cfg.ccReadConfig [a] (nextIssue s)
          (.read (readPayload s.cfg.hdrBytes 4 (nextIssue s))) s) := rfl

theorem tWriteConfig_eq (a : Byte) (v : BitVec 32) (s : State) :
    tWriteConfig a v s =
      (writeOk (nextIssue s),
        afterIssue (tunnelFlags s.cfg) s.cfg.ccWriteConfig (a :: bytesOfValue v) (nextIssue s)
          (.wrote (writeOk (nextIssue s))) s) := rfl

theorem tReadSram_eq (a : Byte) (n : Nat) (s : State) :
    tReadSram a n s =
      (readPayload s.cfg.hdrBytes (4 * n) (nextIssue s),
        afterIssue (tunnelFlags s.cfg) s.cfg.ccReadSram [a, sizeByte n] (nextIssue s)
          (.read (readPayload s.cfg.hdrBytes (4 * n) (nextIssue s))) s) := rfl

theorem tWriteSram_eq (a : Byte) (d : List Byte) (s : State) :
    tWriteSram a d s =
      (writeOk (nextIssue s),
        afterIssue (tunnelFlags s.cfg) s.cfg.ccWriteSram (a :: sizeByte (d.length / 4) :: d)
          (nextIssue s) (.wrote (writeOk (nextIssue s))) s) := rfl

theorem tSelect_eq (s : State) :
    tSelect s =
      (selectAccepted (nextIssue s),
        afterIssue (selectFlags s.cfg) s.cfg.ccSelect s.uid (nextIssue s)
          (.selected (selectAccepted (nextIssue s))) s) := rfl

theorem tInventory_eq (s : State) :
    tInventory s = (uidOfAnswer (nextInventory s), afterInventory (nextInventory s) s) := rfl

theorem readPayload_length {hdr len : Nat} {r : IssueAnswer} {b : List Byte}
    (h : readPayload hdr len r = some b) : b.length = len := by
  unfold readPayload at h
  split at h
  · split at h
    · cases h
    · cases h; simp; omega
  · cases h

theorem uidOfAnswer_length {r : InvAnswer} {u : List Byte} (h : uidOfAnswer r = some u) :
    1 ≤ u.length ∧ u.length ≤ 16 := by
  cases r with
  | noTag => cases h
  | uid f rest => cases h; simp

theorem overlay_take {n : Nat} (u : List Byte) (past : Nat → Byte) (h : u.length ≤ n) :
    (overlay u past : Vector Byte n).toList.take u.length = u := by
  apply List.ext_getElem
  · simp [overlay]; omega
  · intro i h1 h2
    simp [overlay, h2]

theorem readPayload_whole {hdr len : Nat} {f : List Byte} {fs : List (List Byte)}
    (h : hdr + len ≤ f.length) :
    readPayload hdr len (.frames (f :: fs)) = some ((f.drop hdr).take len) := by
  simp [readPayload, h]

theorem readPayload_short {hdr len : Nat} {f : List Byte} {fs : List (List Byte)}
    (h : f.length < hdr + len) : readPayload hdr len (.frames (f :: fs)) = none := by
  simp [readPayload, h]

theorem writeOk_iff (r : IssueAnswer) : writeOk r = true ↔ ∃ f fs, r = .frames (f :: fs) := by
  rcases r with _ | _ | ⟨f, fs⟩ <;> simp [writeOk]

theorem selectAccepted_iff (r : IssueAnswer) : selectAccepted r = true ↔ r = .frames [selectOk] := by
  rcases r with _ | _ | ⟨f, _ | _⟩ <;> simp [selectAccepted]

/-! ### Halting -/

theorem takeHalt_state (k : Kind) (s : State) : (takeHalt k s).regs.state = stFatal := rfl

theorem takeHalt_halt (k : Kind) (s : State) : (takeHalt k s).regs.halt = true := by
  unfold takeHalt; split <;> rfl

theorem takeHalt_lastErr (k : Kind) (s : State) : (takeHalt k s).regs.lastErr = k.code := by
  unfold takeHalt; split <;> rfl

theorem takeHalt_exitCause (k : Kind) (s : State) :
    (takeHalt k s).regs.exitCause =
      if k = .fatal ∧ s.regs.exitCause ≠ 0#4 then s.regs.exitCause else k.code := by
  unfold takeHalt; split <;> rfl

theorem takeHalt_log (k : Kind) (s : State) : (takeHalt k s).log = s.log ++ [k] := by
  unfold takeHalt; split <;> rfl

theorem takeHalt_env (k : Kind) (s : State) : (takeHalt k s).env = s.env := by
  unfold takeHalt; split <;> rfl

/-! ### The chunk reads -/

/-- The chunk reads change the transport alone. -/
theorem readChunks_frame (l : List (Byte × Nat)) (s : State) :
    (readChunks l s).2 = { s with env := (readChunks l s).2.env } := by
  induction l generalizing s with
  | nil => rfl
  | cons p rest ih =>
    have h := ih (tReadSram p.1 p.2 s).2
    simp only [readChunks]
    split <;> exact h

/-- What they deliver is whole blocks, at most as many as the schedule names. -/
theorem readChunks_length (l : List (Byte × Nat)) (s : State) :
    (readChunks l s).1.bytes.length % 4 = 0 ∧
      (readChunks l s).1.bytes.length ≤ 4 * (l.map Prod.snd).sum := by
  induction l generalizing s with
  | nil => simp [readChunks]
  | cons p rest ih =>
    have h := ih (tReadSram p.1 p.2 s).2
    have hp : ∀ b, (tReadSram p.1 p.2 s).1 = some b → b.length = 4 * p.2 := fun b hb =>
      readPayload_length (by rw [tReadSram_eq] at hb; exact hb)
    simp only [readChunks, List.map_cons, List.sum_cons]
    split
    · dsimp only at h ⊢; omega
    · rename_i b hb
      have := hp b hb
      dsimp only at h ⊢
      rw [List.length_append]; omega

/-! ### The operations, inverted -/

theorem readBlock_cases (a : Byte) (s : State) :
    (validCfg a = false ∧
        readBlock a s = (.fail .invalidAddress, record .invalidAddress s)) ∨
      (validCfg a = true ∧ (tReadConfig a s).1 = none ∧
        readBlock a s = (.fail .readError, record .readError (tReadConfig a s).2)) ∨
      (validCfg a = true ∧ ∃ b, (tReadConfig a s).1 = some b ∧ b.length = 4 ∧
        readBlock a s = (.ok b, setBlk (blockval b) (tReadConfig a s).2)) := by
  unfold readBlock
  cases hv : validCfg a with
  | false => simp
  | true =>
    rcases h : tReadConfig a s with ⟨r, s1⟩
    have h1 : r = readPayload s.cfg.hdrBytes 4 (nextIssue s) := by
      rw [tReadConfig_eq] at h; exact (congrArg Prod.fst h).symm
    cases r with
    | none => simp
    | some b => simp [readPayload_length h1.symm]

theorem readByte_cases (a : Byte) (k : Nat) (s : State) :
    (3 < k ∧ readByte a k s = (.fail .invalidOffset, record .invalidOffset s)) ∨
      (k ≤ 3 ∧ ∃ e s1, readBlock a s = (.fail e, s1) ∧ readByte a k s = (.fail e, s1)) ∨
      (k ≤ 3 ∧ ∃ b s1, readBlock a s = (.ok b, s1) ∧
        readByte a k s = (.ok (blockByte b k), s1)) := by
  unfold readByte
  by_cases hk : 3 < k
  · simp [hk]
  · rcases readBlock a s with ⟨_ | _, s1⟩ <;> simp [hk] <;> omega

theorem readField_cases (row : Option (Byte × Nat × Byte)) (s : State) :
    (row = none ∧ readField row s = (.fail .invalidAddress, record .invalidAddress s)) ∨
      ∃ addr off mask, row = some (addr, off, mask) ∧
        ((∃ e s1, readByte addr off s = (.fail e, s1) ∧ readField row s = (.fail e, s1)) ∨
          ∃ v s1, readByte addr off s = (.ok v, s1) ∧ readField row s = (.ok (v &&& mask), s1)) := by
  cases row with
  | none => simp [readField]
  | some t =>
    obtain ⟨addr, off, mask⟩ := t
    rcases h : readByte addr off s with ⟨_ | _, s1⟩ <;> simp [readField, h]

theorem writeBlock_cases (a : Byte) (v : BitVec 32) (s : State) :
    (validCfg a = false ∧
        writeBlock a v s = (.fail .invalidAddress, record .invalidAddress s)) ∨
      (validCfg a = true ∧ (tWriteConfig a v s).1 = true ∧
        writeBlock a v s = (.ok (), (tWriteConfig a v s).2)) ∨
      (validCfg a = true ∧ (tWriteConfig a v s).1 = false ∧
        writeBlock a v s = (.ok (), record .writeError (tWriteConfig a v s).2)) := by
  unfold writeBlock
  cases validCfg a with
  | false => simp
  | true => rcases tWriteConfig a v s with ⟨_ | _, s1⟩ <;> simp

theorem mbxRead_cases (tb : Byte) (s : State) :
    (62 < tb.toNat ∧ mbxRead tb s = (.fail .invalidAddress, record .invalidAddress s)) ∨
      (tb.toNat ≤ 62 ∧ (tReadSram mbxHdrAddr 1 s).1 = none ∧
        mbxRead tb s = (.fail .headerReadError, record .headerReadError (tReadSram mbxHdrAddr 1 s).2)) ∨
      (tb.toNat ≤ 62 ∧ ∃ p, (tReadSram mbxHdrAddr 1 s).1 = some p ∧
        ((62 < mailboxBlocks tb (blockByte p 0) ∧
            mbxRead tb s = (.fail .readError, record .readError (tReadSram mbxHdrAddr 1 s).2)) ∨
          (mailboxBlocks tb (blockByte p 0) ≤ 62 ∧ ∃ m s2,
            readChunks (schedule (mailboxBlocks tb (blockByte p 0))) (tReadSram mbxHdrAddr 1 s).2 =
              (m, s2) ∧
            mbxRead tb s = (.ok m, setRx (blockByte p 0) m.bytes m.complete s2)))) := by
  unfold mbxRead mbxPayloadMaxBlocks
  by_cases h : 62 < tb.toNat
  · simp [h]
  · rcases tReadSram mbxHdrAddr 1 s with ⟨_ | p, s1⟩
    · simp [h]; omega
    · refine .inr (.inr ⟨by omega, p, rfl, ?_⟩)
      by_cases hn : 62 < mailboxBlocks tb (blockByte p 0)
      · exact .inl ⟨hn, by simp [h, hn]⟩
      · exact .inr ⟨by omega, _, _, rfl, by simp [h, hn]⟩

theorem mbxWrite_cases (s : State) :
    ((s.inp.txNblk.toNat = 0 ∨ 15 < s.inp.txNblk.toNat) ∧
        mbxWrite s = (.fail .invalidLength, record .invalidLength s)) ∨
      (1 ≤ s.inp.txNblk.toNat ∧ s.inp.txNblk.toNat ≤ 15 ∧
        ∃ ok1 s1, tWriteSram mbxHdrAddr (s.inp.txData.toList.take (4 * s.inp.txNblk.toNat)) s =
            (ok1, s1) ∧
          ((ok1 = false ∧ mbxWrite s = (.fail .writeError, record .writeError s1)) ∨
            (ok1 = true ∧ ∃ ok2 s2, tWriteSram mbxTermAddr terminator s1 = (ok2, s2) ∧
              ((ok2 = false ∧ mbxWrite s = (.fail .writeError, record .writeError s2)) ∨
                (ok2 = true ∧ mbxWrite s = (.ok (), s2)))))) := by
  unfold mbxWrite txMaxBlocks
  by_cases h : s.inp.txNblk.toNat = 0 ∨ 15 < s.inp.txNblk.toNat
  · exact .inl ⟨h, by simp only [if_pos h]⟩
  · refine .inr ⟨by omega, by omega, ?_⟩
    simp only [if_neg h]
    rcases tWriteSram mbxHdrAddr (s.inp.txData.toList.take (4 * s.inp.txNblk.toNat)) s with
      ⟨_ | _, s1⟩
    · simp
    · rcases h2 : tWriteSram mbxTermAddr terminator s1 with ⟨_ | _, s2⟩ <;> simp [h2]

theorem discover_cases (s : State) :
    ((tInventory s).1 = none ∧
        discover s = (.fail .noTagFound, record .noTagFound (clearSession (tInventory s).2))) ∨
      ∃ u, (tInventory s).1 = some u ∧ 1 ≤ u.length ∧ u.length ≤ 16 ∧
        discover s = (.ok (), setDiscovered u (tInventory s).2) := by
  unfold discover
  rcases h : tInventory s with ⟨r, s1⟩
  have h1 : r = uidOfAnswer (nextInventory s) := by
    rw [tInventory_eq] at h; exact (congrArg Prod.fst h).symm
  cases r with
  | none => simp
  | some u => simp [uidOfAnswer_length h1.symm]

theorem select_cases (s : State) :
    (s.regs.sessUidLen = 0#5 ∧
        select s = (.fail .selectFailure, record .selectFailure s)) ∨
      (s.regs.sessUidLen ≠ 0#5 ∧ (tSelect s).1 = true ∧
        select s = (.ok (), setSelected (tSelect s).2)) ∨
      (s.regs.sessUidLen ≠ 0#5 ∧ (tSelect s).1 = false ∧
        select s = (.fail .selectFailure, record .selectFailure (clearSession (tSelect s).2))) := by
  unfold select
  by_cases h : s.regs.sessUidLen = 0#5
  · simp [h]
  · rcases tSelect s with ⟨_ | _, s1⟩ <;> simp [h]

theorem establish_cases (s : State) :
    (∃ k s1, discover s = (.fail k, s1) ∧ establish s = (.fail k, s1)) ∨
      ∃ s1, discover s = (.ok (), s1) ∧ establish s = select s1 := by
  unfold establish
  rcases discover s with ⟨_ | _, s1⟩ <;> simp

theorem dataDirection_cases (s : State) :
    (∃ k s1, readNamed .ptTransferDir s = (.fail k, s1) ∧ dataDirection s = (.fail k, s1)) ∨
      ∃ pt s1, readNamed .ptTransferDir s = (.ok pt, s1) ∧
        ((∃ k s2, readNamed .edConfig s1 = (.fail k, s2) ∧ dataDirection s = (.fail k, s2)) ∨
          ∃ ed s2, readNamed .edConfig s1 = (.ok ed, s2) ∧
            ((s.inp.lockCheckEn = false ∧
                dataDirection s = finishDirection (decodeDir pt ed) s2) ∨
              (s.inp.lockCheckEn = true ∧
                ((∃ k s3, readByte 0xA0#8 1 s2 = (.fail k, s3) ∧
                    dataDirection s = (.fail k, s3)) ∨
                  ∃ v s3, readByte 0xA0#8 1 s2 = (.ok v, s3) ∧
                    dataDirection s =
                      finishDirection (lockDir s.cfg (decodeDir pt ed) v) s3)))) := by
  unfold dataDirection
  rcases readNamed .ptTransferDir s with ⟨pt | k, s1⟩
  · rcases h2 : readNamed .edConfig s1 with ⟨ed | k, s2⟩
    · cases hl : s.inp.lockCheckEn with
      | false => simp [h2]
      | true => rcases h3 : readByte 0xA0#8 1 s2 with ⟨v | k, s3⟩ <;> simp [h2, h3]
    · simp [h2]
  · simp

end Sys2Proof.Machine
end

