-- ==== Sys2Proof/Laws/Hang.lean ====
section
/-! SUPPORT. No operation of the block reads which call never returns: each does the same with another
`hangAt`, and keeps it. Only `complete` looks at it. -/

namespace Sys2Proof.Machine

/-- An operation's result with another `hangAt`. -/
def hangingResult {α : Type} (h : Option Nat) (x : α × State) : α × State := (x.1, hanging h x.2)

variable (h : Option Nat)

@[simp] theorem hanging_regs (s : State) : (hanging h s).regs = s.regs := rfl
@[simp] theorem hanging_inp (s : State) : (hanging h s).inp = s.inp := rfl
@[simp] theorem hanging_cfg (s : State) : (hanging h s).cfg = s.cfg := rfl
@[simp] theorem hanging_history (s : State) : (hanging h s).env.history = s.env.history := rfl
@[simp] theorem hanging_hangAt (s : State) : (hanging h s).env.hangAt = h := rfl

@[simp] theorem hanging_hanging (k : Option Nat) (s : State) :
    hanging h (hanging k s) = hanging h s := rfl

theorem hanging_self (s : State) : hanging s.env.hangAt s = s := rfl

/-- Where call number k never returns, what makes it faults, and what ends before it completes. -/
theorem complete_of_hangAt {s : State} {k : Nat} (hk : s.env.hangAt = some k) (t : State) :
    complete s t =
      if t.env.history.length ≤ k then .next t else .fault .transportHang := by
  simp [complete, hk]

theorem setLastErr_hanging (v : BitVec 4) (s : State) :
    setLastErr v (hanging h s) = hanging h (setLastErr v s) := rfl

theorem answerHalted_hanging (s : State) :
    answerHalted (hanging h s) = hanging h (answerHalted s) := rfl

theorem takeHalt_hanging (k : Kind) (s : State) :
    takeHalt k (hanging h s) = hanging h (takeHalt k s) := by
  unfold takeHalt
  by_cases hc : k = .fatal ∧ s.regs.exitCause ≠ 0#4
  · rw [if_pos hc, if_pos (by exact hc)]; rfl
  · rw [if_neg hc, if_neg (by exact hc)]; rfl

theorem tReadSram_hanging (a : Byte) (n : Nat) (s : State) :
    tReadSram a n (hanging h s) = hangingResult h (tReadSram a n s) := rfl

theorem tWriteSram_hanging (a : Byte) (d : List Byte) (s : State) :
    tWriteSram a d (hanging h s) = hangingResult h (tWriteSram a d s) := rfl

theorem tReadConfig_hanging (a : Byte) (s : State) :
    tReadConfig a (hanging h s) = hangingResult h (tReadConfig a s) := rfl

theorem tWriteConfig_hanging (a : Byte) (v : BitVec 32) (s : State) :
    tWriteConfig a v (hanging h s) = hangingResult h (tWriteConfig a v s) := rfl

theorem tSelect_hanging (s : State) : tSelect (hanging h s) = hangingResult h (tSelect s) := rfl

theorem tInventory_hanging (s : State) :
    tInventory (hanging h s) = hangingResult h (tInventory s) := rfl

theorem readBlock_hanging (a : Byte) (s : State) :
    readBlock a (hanging h s) = hangingResult h (readBlock a s) := by
  simp only [readBlock, tReadConfig_hanging]
  split
  · rcases tReadConfig a s with ⟨_ | _, _⟩ <;> rfl
  · rfl

theorem readByte_hanging (a : Byte) (k : Nat) (s : State) :
    readByte a k (hanging h s) = hangingResult h (readByte a k s) := by
  simp only [readByte, readBlock_hanging]
  split
  · rfl
  · rcases readBlock a s with ⟨_ | _, _⟩ <;> rfl

theorem readField_hanging (row : Option (Byte × Nat × Byte)) (s : State) :
    readField row (hanging h s) = hangingResult h (readField row s) := by
  rcases row with _ | ⟨a, o, m⟩
  · rfl
  · simp only [readField, readByte_hanging]
    rcases readByte a o s with ⟨_ | _, _⟩ <;> rfl

theorem readNamed_hanging (f : Field) (s : State) :
    readNamed f (hanging h s) = hangingResult h (readNamed f s) := readField_hanging h _ s

theorem writeBlock_hanging (a : Byte) (v : BitVec 32) (s : State) :
    writeBlock a v (hanging h s) = hangingResult h (writeBlock a v s) := by
  simp only [writeBlock, tWriteConfig_hanging]
  split
  · rcases tWriteConfig a v s with ⟨_ | _, _⟩ <;> rfl
  · rfl

theorem readChunks_hanging (l : List (Byte × Nat)) (s : State) :
    readChunks l (hanging h s) = hangingResult h (readChunks l s) := by
  induction l generalizing s with
  | nil => rfl
  | cons p rest ih =>
    simp only [readChunks, tReadSram_hanging, hangingResult, ih]
    split <;> rfl

theorem mbxRead_hanging (tb : Byte) (s : State) :
    mbxRead tb (hanging h s) = hangingResult h (mbxRead tb s) := by
  simp only [mbxRead, tReadSram_hanging]
  split
  · rfl
  · rcases tReadSram mbxHdrAddr 1 s with ⟨_ | p, s1⟩
    · rfl
    · simp only [hangingResult, readChunks_hanging]
      split <;> rfl

theorem mbxWrite_hanging (s : State) :
    mbxWrite (hanging h s) = hangingResult h (mbxWrite s) := by
  unfold mbxWrite
  by_cases hn : s.inp.txNblk.toNat = 0 ∨ txMaxBlocks < s.inp.txNblk.toNat
  · rw [if_pos hn, if_pos (by exact hn)]; rfl
  · rw [if_neg hn, if_neg (by exact hn), tWriteSram_hanging, hanging_inp]
    rcases tWriteSram mbxHdrAddr (s.inp.txData.toList.take (4 * s.inp.txNblk.toNat)) s with
      ⟨_ | _, s1⟩
    · rfl
    · simp only [hangingResult, tWriteSram_hanging]
      rcases tWriteSram mbxTermAddr terminator s1 with ⟨_ | _, _⟩ <;> rfl

theorem discover_hanging (s : State) : discover (hanging h s) = hangingResult h (discover s) := by
  simp only [discover, tInventory_hanging]
  rcases tInventory s with ⟨_ | _, _⟩ <;> rfl

theorem select_hanging (s : State) : select (hanging h s) = hangingResult h (select s) := by
  unfold select
  by_cases hl : s.regs.sessUidLen = 0#5
  · rw [if_pos hl, if_pos (by exact hl)]; rfl
  · rw [if_neg hl, if_neg (by exact hl), tSelect_hanging]
    rcases tSelect s with ⟨_ | _, _⟩ <;> rfl

theorem establish_hanging (s : State) : establish (hanging h s) = hangingResult h (establish s) := by
  simp only [establish, discover_hanging]
  rcases discover s with ⟨_ | _, s1⟩
  · exact select_hanging h s1
  · rfl

theorem finishDirection_hanging (d : Direction) (s : State) :
    finishDirection d (hanging h s) = hangingResult h (finishDirection d s) := by
  unfold finishDirection
  split <;> rfl

theorem dataDirection_hanging (s : State) :
    dataDirection (hanging h s) = hangingResult h (dataDirection s) := by
  simp only [dataDirection, readNamed_hanging, hanging_inp, hanging_cfg]
  rcases readNamed .ptTransferDir s with ⟨pt | _, s1⟩
  · simp only [hangingResult, readNamed_hanging]
    rcases readNamed .edConfig s1 with ⟨ed | _, s2⟩
    · simp only [hangingResult, readByte_hanging]
      split
      · rcases readByte 0xA0#8 1 s2 with ⟨v | _, s3⟩
        · exact finishDirection_hanging h _ s3
        · rfl
      · exact finishDirection_hanging h _ s2
    · rfl
  · rfl

theorem waitReadMailbox_hanging (s : State) :
    waitReadMailbox (hanging h s) = hangingResult h (waitReadMailbox s) := by
  simp only [waitReadMailbox, mbxRead_hanging]
  rcases mbxRead 0#8 s with ⟨m | _, s1⟩
  · simp only [hangingResult, readNamed_hanging]
    split
    · rcases readNamed .sramDataRdy s1 with ⟨_ | _, _⟩ <;> rfl
    · rfl
  · rfl

theorem waitPoll_hanging (s : State) : waitPoll (hanging h s) = hangingResult h (waitPoll s) := by
  simp only [waitPoll, dataDirection_hanging]
  rcases dataDirection s with ⟨d | _, s1⟩
  · simp only [hangingResult, readNamed_hanging]
    split
    · rcases readNamed .sramDataRdy s1 with ⟨v | _, s2⟩
      · simp only [hangingResult, waitReadMailbox_hanging]
        split <;> rfl
      · rfl
    · rfl
  · rfl

theorem runHandler_hanging (hd : Handler) (now : BitVec 32) (s : State) :
    runHandler hd now (hanging h s) = hangingResult h (runHandler hd now s) := by
  cases hd with
  | init =>
    simp only [runHandler, hInit, establish_hanging, hanging_inp]
    rcases establish s with ⟨_ | _, _⟩ <;> rfl
  | triggerEnergyHarvest =>
    simp only [runHandler, hTriggerEnergyHarvest, readNamed_hanging]
    rcases readNamed .ehLoadOk s with ⟨_ | _, _⟩ <;> rfl
  | waitI2cToNfc =>
    simp only [runHandler, hWaitI2cToNfc, waitPoll_hanging, takeHalt_hanging, hanging_regs]
    split <;> rfl
  | waitNfcToI2c =>
    simp only [runHandler, hWaitNfcToI2c, dataDirection_hanging]
    rcases dataDirection s with ⟨d | _, s1⟩
    · simp only [hangingResult, mbxWrite_hanging]
      split
      · rcases mbxWrite s1 with ⟨_ | _, _⟩ <;> rfl
      · rfl
    · rfl
  | fatal =>
    simp only [runHandler, hFatal, takeHalt_hanging]
    rfl

theorem reloadWatchdog_hanging (cur next : BitVec 3) (now : BitVec 32) (s : State) :
    reloadWatchdog cur next now (hanging h s) = hanging h (reloadWatchdog cur next now s) := by
  unfold reloadWatchdog
  by_cases hc : next ≠ cur ∧ next ≠ stFatal ∧
      (cur = stInit ∨ s.cfg.wdgReloadOnTransition = true)
  · rw [if_pos hc, if_pos (by exact hc)]; rfl
  · rw [if_neg hc, if_neg (by exact hc)]

theorem tickBody_hanging (hd : Handler) (s : State) :
    tickBody hd (hanging h s) = hanging h (tickBody hd s) := by
  simp only [tickBody, runHandler_hanging, hanging_inp, hanging_regs]
  rcases runHandler hd s.inp.now s with ⟨next, s1⟩
  simp only [hangingResult, reloadWatchdog_hanging]
  rfl

end Sys2Proof.Machine
end

