-- ==== Sys2Proof/Laws/PerInstr.lean ====
section
/-! SUPPORT. The statement families made per instruction. `Format`: the encoder gives every instruction a
word of the format its row has in the opcode table. -/

namespace Sys2Proof.Laws.Format

/-- The word of the instruction has its row's format, for every configuration and every UID. -/
def Statement (i : Instr) : Prop := ∀ (c : Cfg) (uid : List Byte), (encode c uid i).format = i.format

theorem tick : Statement .tick := fun _ _ => rfl
theorem readBlock (a : Byte) : Statement (.readBlock a) := fun _ _ => rfl
theorem readByte (a b : Byte) : Statement (.readByte a b) := fun _ _ => rfl
theorem readRegisterBit (a : Byte) : Statement (.readRegisterBit a) := fun _ _ => rfl
theorem readConfigBit (a : Byte) : Statement (.readConfigBit a) := fun _ _ => rfl
theorem writeBlock (a : Byte) (w : BitVec 32) : Statement (.writeBlock a w) := fun _ _ => rfl
theorem mbxRead (b : Byte) : Statement (.mbxRead b) := fun _ _ => rfl
theorem mbxWrite : Statement .mbxWrite := fun _ _ => rfl
theorem discover : Statement .discover := fun _ _ => rfl
theorem select : Statement .select := fun _ _ => rfl
theorem establish : Statement .establish := fun _ _ => rfl
theorem dataDirection : Statement .dataDirection := fun _ _ => rfl
theorem reservedOp (oo : BitVec 2) : Statement (.reservedOp oo) := fun _ _ => rfl
theorem hInit : Statement .hInit := fun _ _ => rfl
theorem hTriggerEnergyHarvest : Statement .hTriggerEnergyHarvest := fun _ _ => rfl
theorem hWaitI2cToNfc : Statement .hWaitI2cToNfc := fun _ _ => rfl
theorem hWaitNfcToI2c : Statement .hWaitNfcToI2c := fun _ _ => rfl
theorem hFatal : Statement .hFatal := fun _ _ => rfl
theorem hFatalDefault57 (x : Bool) : Statement (.hFatalDefault57 x) := fun _ _ => rfl
theorem hFatalDefault6 : Statement .hFatalDefault6 := fun _ _ => rfl
theorem flags (o s a p i h d : Bool) : Statement (.flags o s a p i h d) := fun _ _ => rfl
theorem encodeFlags (opts : Options) : Statement (.encodeFlags opts) := fun _ _ => rfl
theorem tReadConfig (a : Byte) : Statement (.tReadConfig a) := fun _ _ => rfl
theorem tWriteConfig (a : Byte) (v : BitVec 32) : Statement (.tWriteConfig a v) := fun _ _ => rfl
theorem tReadSram (a : Byte) (n : Nat) : Statement (.tReadSram a n) := fun _ _ => rfl
theorem tWriteSram (a : Byte) (d : List Byte) : Statement (.tWriteSram a d) := fun _ _ => rfl
theorem tSelect : Statement .tSelect := fun _ _ => rfl
theorem tInventory : Statement .tInventory := fun _ _ => rfl

end Sys2Proof.Laws.Format
end

