-- ==== Sys2Proof/Laws/Steady.lean ====
section
/-! SUPPORT. No operation of the block changes the host's inputs, the configuration or a call already
made: each operation is `Steady`. -/

namespace Sys2Proof.Machine

theorem Steady.refl (s : State) : Steady s s := ⟨rfl, rfl, rfl, rfl, rfl, List.prefix_rfl⟩

theorem Steady.trans {s t u : State} (h : Steady s t) (k : Steady t u) : Steady s u :=
  ⟨k.inp.trans h.inp, k.feOpts.trans h.feOpts, k.cfg.trans h.cfg, k.pending.trans h.pending,
    k.hangAt.trans h.hangAt, h.history.trans k.history⟩

/-- The state an operation ends in, read off its result. -/
theorem Steady.of {α : Type} {s s1 : State} {x : α × State} {r : α} (h : x = (r, s1))
    (k : Steady s x.2) : Steady s s1 := by rw [h] at k; exact k

/-- A change that leaves the inputs, the configuration and the transport alone is steady. -/
theorem Steady.ofEnv {s t : State} (h1 : t.inp = s.inp) (h2 : t.feOpts = s.feOpts)
    (h3 : t.cfg = s.cfg) (h4 : t.pending = s.pending) (h5 : t.env = s.env) : Steady s t :=
  ⟨h1, h2, h3, h4, by rw [h5], by rw [h5]⟩

theorem record_steady (k : Kind) (s : State) : Steady s (record k s) := .ofEnv rfl rfl rfl rfl rfl

theorem respond_steady (st : BitVec 4) (d : BitVec 32) (s : State) : Steady s (respond st d s) :=
  .ofEnv rfl rfl rfl rfl rfl

theorem setLastErr_steady (v : BitVec 4) (s : State) : Steady s (setLastErr v s) :=
  .ofEnv rfl rfl rfl rfl rfl

theorem setBlk_steady (v : BitVec 32) (s : State) : Steady s (setBlk v s) :=
  .ofEnv rfl rfl rfl rfl rfl

theorem setRx_steady (h : Byte) (p : List Byte) (c : Bool) (s : State) : Steady s (setRx h p c s) :=
  .ofEnv rfl rfl rfl rfl rfl

theorem afterIssue_steady (fl cc : Byte) (p : List Byte) (r : IssueAnswer) (v : FrameValue)
    (s : State) : Steady s (afterIssue fl cc p r v s) :=
  ⟨rfl, rfl, rfl, rfl, rfl, List.prefix_append _ _⟩

theorem afterInventory_steady (r : InvAnswer) (s : State) : Steady s (afterInventory r s) :=
  ⟨rfl, rfl, rfl, rfl, rfl, List.prefix_append _ _⟩

theorem tReadConfig_steady (a : Byte) (s : State) : Steady s (tReadConfig a s).2 :=
  afterIssue_steady ..

theorem tWriteConfig_steady (a : Byte) (v : BitVec 32) (s : State) :
    Steady s (tWriteConfig a v s).2 := afterIssue_steady ..

theorem tReadSram_steady (a : Byte) (n : Nat) (s : State) : Steady s (tReadSram a n s).2 :=
  afterIssue_steady ..

theorem tWriteSram_steady (a : Byte) (d : List Byte) (s : State) : Steady s (tWriteSram a d s).2 :=
  afterIssue_steady ..

theorem tSelect_steady (s : State) : Steady s (tSelect s).2 := afterIssue_steady ..

theorem tInventory_steady (s : State) : Steady s (tInventory s).2 := afterInventory_steady ..

theorem readBlock_steady (a : Byte) (s : State) : Steady s (readBlock a s).2 := by
  obtain ⟨_, h⟩ | ⟨_, _, h⟩ | ⟨_, b, _, _, h⟩ := readBlock_cases a s <;> rw [h]
  · exact record_steady ..
  · exact (tReadConfig_steady a s).trans (record_steady ..)
  · exact (tReadConfig_steady a s).trans (setBlk_steady ..)

theorem readByte_steady (a : Byte) (k : Nat) (s : State) : Steady s (readByte a k s).2 := by
  obtain ⟨_, h⟩ | ⟨_, e, s1, hb, h⟩ | ⟨_, b, s1, hb, h⟩ := readByte_cases a k s <;> rw [h]
  · exact record_steady ..
  · exact .of hb (readBlock_steady a s)
  · exact .of hb (readBlock_steady a s)

theorem readField_steady (row : Option (Byte × Nat × Byte)) (s : State) :
    Steady s (readField row s).2 := by
  obtain ⟨_, h⟩ | ⟨a, o, m, _, ⟨e, s1, hb, h⟩ | ⟨v, s1, hb, h⟩⟩ := readField_cases row s <;> rw [h]
  · exact record_steady ..
  · exact .of hb (readByte_steady a o s)
  · exact .of hb (readByte_steady a o s)

theorem readNamed_steady (f : Field) (s : State) : Steady s (readNamed f s).2 := readField_steady ..

theorem writeBlock_steady (a : Byte) (v : BitVec 32) (s : State) :
    Steady s (writeBlock a v s).2 := by
  obtain ⟨_, h⟩ | ⟨_, _, h⟩ | ⟨_, _, h⟩ := writeBlock_cases a v s <;> rw [h]
  · exact record_steady ..
  · exact tWriteConfig_steady a v s
  · exact (tWriteConfig_steady a v s).trans (record_steady ..)

theorem readChunks_steady (l : List (Byte × Nat)) (s : State) : Steady s (readChunks l s).2 := by
  induction l generalizing s with
  | nil => exact .refl s
  | cons p rest ih =>
    obtain ⟨a, n⟩ := p
    have h := (tReadSram_steady a n s).trans (ih (tReadSram a n s).2)
    simp only [readChunks]
    split <;> exact h

theorem mbxRead_steady (tb : Byte) (s : State) : Steady s (mbxRead tb s).2 := by
  obtain ⟨_, h⟩ | ⟨_, _, h⟩ | ⟨_, p, _, ⟨_, h⟩ | ⟨_, m, s2, hc, h⟩⟩ := mbxRead_cases tb s <;> rw [h]
  · exact record_steady ..
  · exact (tReadSram_steady ..).trans (record_steady ..)
  · exact (tReadSram_steady ..).trans (record_steady ..)
  · exact (tReadSram_steady ..).trans ((Steady.of hc (readChunks_steady _ _)).trans (setRx_steady ..))

theorem mbxWrite_steady (s : State) : Steady s (mbxWrite s).2 := by
  obtain ⟨_, h⟩ | ⟨_, _, ok1, s1, h1, ⟨_, h⟩ | ⟨_, ok2, s2, h2, ⟨_, h⟩ | ⟨_, h⟩⟩⟩ :=
    mbxWrite_cases s <;> rw [h]
  · exact record_steady ..
  · exact (Steady.of h1 (tWriteSram_steady _ _ s)).trans (record_steady ..)
  · exact (Steady.of h1 (tWriteSram_steady _ _ s)).trans
      ((Steady.of h2 (tWriteSram_steady _ _ s1)).trans (record_steady ..))
  · exact (Steady.of h1 (tWriteSram_steady _ _ s)).trans (Steady.of h2 (tWriteSram_steady _ _ s1))

theorem discover_steady (s : State) : Steady s (discover s).2 := by
  obtain ⟨_, h⟩ | ⟨u, _, _, _, h⟩ := discover_cases s <;> rw [h]
  · exact (tInventory_steady s).trans (.ofEnv rfl rfl rfl rfl rfl)
  · exact (tInventory_steady s).trans (.ofEnv rfl rfl rfl rfl rfl)

theorem select_steady (s : State) : Steady s (select s).2 := by
  obtain ⟨_, h⟩ | ⟨_, _, h⟩ | ⟨_, _, h⟩ := select_cases s <;> rw [h]
  · exact record_steady ..
  · exact (tSelect_steady s).trans (.ofEnv rfl rfl rfl rfl rfl)
  · exact (tSelect_steady s).trans (.ofEnv rfl rfl rfl rfl rfl)

theorem establish_steady (s : State) : Steady s (establish s).2 := by
  obtain ⟨k, s1, hd, h⟩ | ⟨s1, hd, h⟩ := establish_cases s <;> rw [h]
  · exact .of hd (discover_steady s)
  · exact (Steady.of hd (discover_steady s)).trans (select_steady s1)

theorem finishDirection_steady (d : Direction) (s : State) : Steady s (finishDirection d s).2 := by
  unfold finishDirection
  split <;> exact .ofEnv rfl rfl rfl rfl rfl

theorem dataDirection_steady (s : State) : Steady s (dataDirection s).2 := by
  obtain ⟨k, s1, h1, h⟩ | ⟨pt, s1, h1, ⟨k, s2, h2, h⟩ | ⟨ed, s2, h2, ⟨_, h⟩ | ⟨_, ⟨k, s3, h3, h⟩ |
    ⟨v, s3, h3, h⟩⟩⟩⟩ := dataDirection_cases s <;> rw [h]
  · exact .of h1 (readNamed_steady _ s)
  · exact (Steady.of h1 (readNamed_steady _ s)).trans (Steady.of h2 (readNamed_steady _ s1))
  · exact (Steady.of h1 (readNamed_steady _ s)).trans
      ((Steady.of h2 (readNamed_steady _ s1)).trans (finishDirection_steady ..))
  · exact (Steady.of h1 (readNamed_steady _ s)).trans
      ((Steady.of h2 (readNamed_steady _ s1)).trans (Steady.of h3 (readByte_steady _ _ s2)))
  · exact (Steady.of h1 (readNamed_steady _ s)).trans ((Steady.of h2 (readNamed_steady _ s1)).trans
      ((Steady.of h3 (readByte_steady _ _ s2)).trans (finishDirection_steady ..)))

theorem takeHalt_steady (k : Kind) (s : State) : Steady s (takeHalt k s) := by
  unfold takeHalt
  split <;> exact .ofEnv rfl rfl rfl rfl rfl

end Sys2Proof.Machine
end

