-- ==== Sys2Proof/Tests/Slice0.lean ====
section
/-! SUPPORT. The model's own tests: the words of 30_encoding.md, the vectors of 95_test_vectors.md (each test
names its vector), the well-formedness smoke test, and, for every obligation with hypotheses, a concrete
state and operands that meet them. -/

open Sys2Proof Sys2Proof.Machine Sys2Proof.Claims

namespace Sys2Proof.Tests

/-! ### Decoding: each constructor's word, written out from the spec's encoding of it -/

/-- What the decoder reads from a word, if anything. -/
def reads (w : Code) : Option Instr := (decode Cfg.defaults w).toOption

/-- R91; 2.2: op 0x0, and the word 0x0FFFFFFFFFFFF. -/
theorem test_decode_tick :
    reads (.cmd 0x0000000000000#52) = some .tick ∧ reads (.cmd 0x0FFFFFFFFFFFF#52) = some .tick := by
  decide

/-- 2.2. -/
theorem test_decode_readBlock : reads (.cmd 0x1A00000000000#52) = some (.readBlock 0xA0#8) := by decide

/-- 2.2. -/
theorem test_decode_readByte :
    reads (.cmd 0x2A00100000000#52) = some (.readByte 0xA0#8 0x01#8) := by decide

/-- 2.2. -/
theorem test_decode_readRegisterBit :
    reads (.cmd 0x3080000000000#52) = some (.readRegisterBit 0x08#8) := by decide

/-- R91: op 0x4, a = 0x01. -/
theorem test_decode_readConfigBit :
    reads (.cmd 0x4010000000000#52) = some (.readConfigBit 0x01#8) := by decide

/-- 2.2. -/
theorem test_decode_writeBlock :
    reads (.cmd 0x5A10011223344#52) = some (.writeBlock 0xA1#8 0x11223344#32) := by decide

/-- 2.2. -/
theorem test_decode_mbxRead : reads (.cmd 0x6001000000000#52) = some (.mbxRead 0x10#8) := by decide

/-- 2.2. -/
theorem test_decode_mbxWrite : reads (.cmd 0x7000000000000#52) = some .mbxWrite := by decide

/-- 2.2. -/
theorem test_decode_discover : reads (.cmd 0x8000000000000#52) = some .discover := by decide

/-- 2.2. -/
theorem test_decode_select : reads (.cmd 0x9000000000000#52) = some .select := by decide

/-- 2.2. -/
theorem test_decode_establish : reads (.cmd 0xA000000000000#52) = some .establish := by decide

/-- 2.2. -/
theorem test_decode_dataDirection : reads (.cmd 0xB000000000000#52) = some .dataDirection := by decide

/-- 2.2: ops 0xC and 0xF, any fields. -/
theorem test_decode_reservedOp :
    reads (.cmd 0xC000000000000#52) = some (.reservedOp 0#2) ∧
      reads (.cmd 0xFFFFFFFFFFFFF#52) = some (.reservedOp 3#2) := by decide

/-- R105: codes 0 to 7. -/
theorem test_decode_states :
    reads (.state 0b000#3) = some .hInit ∧ reads (.state 0b001#3) = some .hTriggerEnergyHarvest ∧
      reads (.state 0b010#3) = some .hWaitI2cToNfc ∧ reads (.state 0b011#3) = some .hWaitNfcToI2c ∧
      reads (.state 0b100#3) = some .hFatal ∧
      reads (.state 0b101#3) = some (.hFatalDefault57 false) ∧
      reads (.state 0b110#3) = some .hFatalDefault6 ∧
      reads (.state 0b111#3) = some (.hFatalDefault57 true) := by decide

/-- R95: 0 o s a p i h d, and the RFU bit. -/
theorem test_decode_flags :
    reads (.flags 0b01000010#8) = some (.flags true false false false false true false) ∧
      reads (.flags 0b00110101#8) = some (.flags false true true false true false true) ∧
      reads (.flags 0b10000000#8) = none := by decide

/-- R96: bit 8 is address, bit 5 single_slot, bit 2 inventory. -/
theorem test_decode_encodeFlags :
    reads (.opts 0b100100100#9) = some (.encodeFlags
      { doubleSubCarrier := false, highDataRate := false, inventory := true, protocolExtension := false
        afi := false, singleSlot := true, option := false, select := false, address := true }) := by
  decide

/-- R98, vector A1. -/
theorem test_decode_tReadConfig :
    reads (.frame (.issue 0x10#8 0xC0#8 [0xA0#8])) = some (.tReadConfig 0xA0#8) := by decide

/-- R99, vector A7. -/
theorem test_decode_tWriteConfig :
    reads (.frame (.issue 0x10#8 0xC1#8 [0xA1#8, 0x44#8, 0x33#8, 0x22#8, 0x11#8])) =
      some (.tWriteConfig 0xA1#8 0x11223344#32) := by decide

/-- R100, vector M5: size byte 0x0E is 15 blocks; 0x0F is no frame. -/
theorem test_decode_tReadSram :
    reads (.frame (.issue 0x10#8 0xD2#8 [0x01#8, 0x0E#8])) = some (.tReadSram 0x01#8 15) ∧
      reads (.frame (.issue 0x10#8 0xD2#8 [0x01#8, 0x0F#8])) = none := by decide

/-- R101, vector W1. -/
theorem test_decode_tWriteSram :
    reads (.frame (.issue 0x10#8 0xD3#8 [0x3F#8, 0x00#8, 0xFF#8, 0xFF#8, 0xFF#8, 0xFF#8])) =
      some (.tWriteSram 0x3F#8 [0xFF#8, 0xFF#8, 0xFF#8, 0xFF#8]) := by decide

/-- R102, vector T3; without the address flag it is no select frame. -/
theorem test_decode_tSelect :
    reads (.frame (.issue 0x20#8 0x25#8 [0xE0#8, 0x07#8])) = some .tSelect ∧
      reads (.frame (.issue 0x10#8 0x25#8 [0xE0#8, 0x07#8])) = none := by decide

/-- R103. -/
theorem test_decode_tInventory : reads (.frame .inventory) = some .tInventory := by decide

/-- R110: written lines and their words (2.2). -/
theorem test_assemble :
    assemble .readByte [.num 0xA0, .num 1] = some 0x2A00100000000#52 ∧
      assemble .readRegisterBit [.field .edConfig] = some 0x3080000000000#52 ∧
      assemble .readRegisterBit [.pair .ehConfigReg .ehLoadOk] = some 0x3050000000000#52 ∧
      assemble .readRegisterBit [.pair .status0Reg .edConfig] = none ∧
      assemble .mbxRead [.num 16] = some 0x6001000000000#52 := by decide

/-! ### Well-formedness: an ill-formed term for each check -/

theorem test_wellFormed_count :
    wellFormed (.tReadSram 0x01#8 15) = true ∧ wellFormed (.tReadSram 0x01#8 0) = false ∧
      wellFormed (.tReadSram 0x01#8 16) = false := by decide

theorem test_wellFormed_blocks :
    wellFormed (.tWriteSram 0x00#8 (List.replicate 60 0#8)) = true ∧
      wellFormed (.tWriteSram 0x00#8 []) = false ∧
      wellFormed (.tWriteSram 0x00#8 (List.replicate 7 0#8)) = false ∧
      wellFormed (.tWriteSram 0x00#8 (List.replicate 64 0#8)) = false := by decide

theorem test_codesDistinct :
    Cfg.defaults.CodesDistinct ∧ ¬{ Cfg.defaults with ccSelect := 0xC0#8 }.CodesDistinct := by decide

theorem test_uidBytes : UidBytes [1#8] ∧ ¬UidBytes [] ∧ ¬UidBytes (List.replicate 17 1#8) := by decide

/-! ### States and what a test looks at -/

/-- A state after reset whose transport answers `iss` and `invs`. -/
def on (iss : List IssueAnswer) (invs : List InvAnswer := []) : State :=
  { State.reset with env := { Env.initial with issues := iss, invs := invs } }

/-- With the STATE register at a code. -/
def inState (st : BitVec 3) (s : State) : State := setState st s

/-- With TX_DATA and TX_NBLK from `.tx`. -/
def sending (bytes : List Byte) (s : State) : State := { s with inp := applyDirective (.tx bytes) s.inp }

/-- With a discovered session. -/
def discovered (u : List Byte) (s : State) : State := setDiscovered u s

/-- A halted block (EXIT_CAUSE 8). -/
def haltedState : State :=
  { State.reset with regs := { Regs.reset with state := 4#3, halt := true, exitCause := 8#4 } }

/-- One frame. -/
abbrev one (f : List Byte) : IssueAnswer := .frames [f]

/-- The UID of the vectors. -/
def uid9 : List Byte := [0xE0#8, 0x07#8, 0x04#8, 0x65#8, 0x58#8, 0xF6#8, 0xAB#8, 0x11#8, 0x00#8]

/-- That UID as an inventory answer. -/
def uidAnswer : InvAnswer := .uid 0xE0#8 [0x07#8, 0x04#8, 0x65#8, 0x58#8, 0xF6#8, 0xAB#8, 0x11#8, 0x00#8]

/-- Directions D1 (I2C_NFC) and D2 (NFC_I2C). -/
def d1 : List IssueAnswer := [one [0#8, 0#8, 0#8, 0#8, 0#8], one [0#8, 3#8, 0#8, 0#8, 0#8]]
def d2 : List IssueAnswer := [one [0#8, 0#8, 1#8, 0#8, 0#8], one [0#8, 4#8, 0#8, 0#8, 0#8]]

/-- SRAM_DATA_RDY set, and clear. -/
def ready : IssueAnswer := one [0#8, 0x20#8, 0#8, 0#8, 0#8]
def notReady : IssueAnswer := one [0#8, 0#8, 0#8, 0#8, 0#8]

/-- The next state, if there is one. -/
def nextOf (o : Host.Outcome State Fault Refusal) : Option State :=
  match o with
  | .next t => some t
  | _ => none

/-- The status, the data and the number of calls of an instruction. -/
def shows (i : Instr) (s : State) : Option (Option Response × Nat) :=
  (nextOf (exec i s)).map fun t => (t.rsp, t.env.history.length)

/-- A look at the next state. -/
def look {α : Type} (f : State → α) (i : Instr) (s : State) : Option α := (nextOf (exec i s)).map f

/-- The requests made, without their answers. -/
def requests (s : State) : List (Byte × Byte × List Byte) :=
  s.env.history.filterMap fun c =>
    match c with
    | .issue fl cc p _ => some (fl, cc, p)
    | .inventory _ => none

/-! ### FLAGENC -/

/-- F3, F4, F5, F7, F8: inventory chooses between single_slot, afi and address, select. -/
theorem test_encodeFlags :
    encodeFlagBits 0x024#9 = 0x24#8 ∧ encodeFlagBits 0x180#9 = 0x30#8 ∧
      encodeFlagBits 0x1FF#9 = 0x7F#8 ∧ encodeFlagBits 0x184#9 = 0x04#8 ∧
      encodeFlagBits 0x1B0#9 = 0x30#8 := by decide

/-- F14 through the port: option vector 0x026 shows 0x26. -/
theorem test_encodeFlags_port :
    look State.feFlags (decodeOptions 0x026#9) State.reset = some 0x26#8 := by decide

/-- R95: the byte 0x52 shows as 0x52. -/
theorem test_flags :
    look State.feFlags (.flags true false true false false true false) State.reset = some 0x52#8 := by
  decide

/-! ### REGACC -/

/-- A1: the block little-endian, BLK. -/
theorem test_readBlock :
    look (fun t => (t.rsp, t.regs.blk)) (.readBlock 0xA0#8)
        (on [one [0x00#8, 0x20#8, 0x01#8, 0x00#8, 0x00#8]]) =
      some (some ⟨0#4, 0x120#32⟩, 0x120#32) ∧
    look requests (.readBlock 0xA0#8) (on [.fail]) = some [(0x10#8, 0xC0#8, [0xA0#8])] := by decide

/-- A5: only the first frame counts; A6: no call outside VALID_CFG. -/
theorem test_readBlock_fails :
    shows (.readBlock 0xA0#8)
        (on [.frames [[0#8, 0x20#8, 1#8, 0#8], [0#8, 0xAA#8, 0xBB#8, 0xCC#8, 0xDD#8]]]) =
      some (some ⟨3#4, 0#32⟩, 1) ∧
    shows (.readBlock 0x40#8) (on []) = some (some ⟨6#4, 0#32⟩, 0) ∧
    shows (.readBlock 0xA9#8) (on []) = some (some ⟨6#4, 0#32⟩, 0) := by decide

/-- A11. -/
theorem test_readByte :
    shows (.readByte 0xA0#8 1#8) (on [one [0#8, 0x20#8, 1#8, 0#8, 0#8]]) =
      some (some ⟨0#4, 1#32⟩, 1) := by decide

/-- A12, A13: the offset is tested before the address. -/
theorem test_readByte_offset :
    shows (.readByte 0xA0#8 4#8) (on []) = some (some ⟨5#4, 0#32⟩, 0) ∧
      shows (.readByte 0x40#8 4#8) (on []) = some (some ⟨5#4, 0#32⟩, 0) := by decide

/-- A14, A18, A19: masked, not normalised. -/
theorem test_readRegisterBit :
    shows (.readRegisterBit 0#8) (on [one [0#8, 0xFF#8, 0xFF#8, 0xFF#8, 0xFF#8]]) =
      some (some ⟨0#4, 0x20#32⟩, 1) ∧
    shows (.readRegisterBit 6#8) (on [one [0#8, 0x89#8, 0#8, 0#8, 0#8]]) =
      some (some ⟨0#4, 8#32⟩, 1) ∧
    shows (.readRegisterBit 8#8) (on [one [0#8, 0xF4#8, 0#8, 0#8, 0#8]]) =
      some (some ⟨0#4, 4#32⟩, 1) := by decide

/-- A20: reserved identifiers, the high nibble included. -/
theorem test_readRegisterBit_reserved :
    shows (.readRegisterBit 9#8) (on []) = some (some ⟨6#4, 0#32⟩, 0) ∧
      shows (.readRegisterBit 0x10#8) (on []) = some (some ⟨6#4, 0#32⟩, 0) := by decide

/-- A21, A22. -/
theorem test_readConfigBit :
    look (fun t => (t.rsp, requests t)) (.readConfigBit 0#8)
        (on [one [0#8, 0x11#8, 0x22#8, 0x33#8, 0x44#8]]) =
      some (some ⟨0#4, 0x22#32⟩, [(0x10#8, 0xC0#8, [0x3F#8])]) ∧
    shows (.readConfigBit 1#8) (on []) = some (some ⟨6#4, 0#32⟩, 0) := by decide

/-- A7: the bytes go least significant first. -/
theorem test_writeBlock :
    look (fun t => (t.rsp, requests t)) (.writeBlock 0xA1#8 0x11223344#32) (on [one [0#8]]) =
      some (some ⟨0#4, 0#32⟩,
        [(0x10#8, 0xC1#8, [0xA1#8, 0x44#8, 0x33#8, 0x22#8, 0x11#8])]) := by decide

/-- A8: a failed write answers 0 and records WriteError. -/
theorem test_writeBlock_fails :
    look (fun t => (t.rsp, t.regs.lastErr, t.log)) (.writeBlock 0xA1#8 0x11223344#32)
        (on [.frames []]) =
      some (some ⟨0#4, 0#32⟩, 10#4, [.writeError]) := by decide

/-! ### MBXCH -/

/-- S6, S12, M9: chunk addresses and counts. -/
theorem test_schedule :
    schedule 45 = [(0x01#8, 15), (0x10#8, 15), (0x1F#8, 15)] ∧ schedule 0 = [] ∧
      schedule 62 = [(0x01#8, 15), (0x10#8, 15), (0x1F#8, 15), (0x2E#8, 15), (0x3D#8, 2)] := by
  decide

/-- M2. -/
theorem test_mbxRead :
    look (fun t => (t.rsp, t.regs.rxBuf.toList.take 8, (requests t).map fun r => r.2.2)) (.mbxRead 0#8)
        (on [one [0#8, 8#8, 0xAA#8, 0xBB#8, 0xCC#8],
          one [0#8, 0x11#8, 0x22#8, 0x33#8, 0x44#8, 0x55#8, 0x66#8, 0x77#8, 0x88#8]]) =
      some (some ⟨0#4, 0x00080108#32⟩,
        [0x11#8, 0x22#8, 0x33#8, 0x44#8, 0x55#8, 0x66#8, 0x77#8, 0x88#8],
        [[0#8, 0#8], [1#8, 1#8]]) := by decide

/-- M7, an operand instead of the length: the first of two chunks fails, the second still counts. -/
theorem test_mbxRead_incomplete :
    look (fun t => (t.rsp, t.regs.rxBuf.toList.take 4, t.regs.rxComplete)) (.mbxRead 16#8)
        (on [one [0#8, 0x40#8, 0#8, 0#8, 0#8], .fail, one [0#8, 1#8, 2#8, 3#8, 4#8]]) =
      some (some ⟨0#4, 0x00400004#32⟩, [1#8, 2#8, 3#8, 4#8], false) := by decide

/-- W1: payload, then terminator. -/
theorem test_mbxWrite :
    look (fun t => (t.rsp, requests t)) .mbxWrite
        (sending [0#8, 0#8, 0xFF#8, 0xFF#8] (on [one [0#8], one [0#8]])) =
      some (some ⟨0#4, 0#32⟩,
        [(0x10#8, 0xD3#8, [0#8, 0#8, 0#8, 0#8, 0xFF#8, 0xFF#8]),
          (0x10#8, 0xD3#8, [0x3F#8, 0#8, 0xFF#8, 0xFF#8, 0xFF#8, 0xFF#8])]) := by decide

/-- W2: no terminator after a failed payload write; W4: no call with no blocks. -/
theorem test_mbxWrite_fails :
    shows .mbxWrite (sending [0#8, 0#8, 0xFF#8, 0xFF#8] (on [.fail])) =
      some (some ⟨10#4, 0#32⟩, 1) ∧
    shows .mbxWrite (on []) = some (some ⟨11#4, 0#32⟩, 0) := by decide

/-! ### SESSION -/

/-- The session as the host sees it. -/
def sessionOf (t : State) : Option Response × List Byte × Bool := (t.rsp, t.uid, t.regs.sessSelected)

/-- T1, T2. -/
theorem test_discover :
    look sessionOf .discover (on [] [uidAnswer]) = some (some ⟨0#4, 9#32⟩, uid9, false) ∧
      look sessionOf .discover (discovered uid9 (on [] [.noTag])) =
        some (some ⟨1#4, 0#32⟩, [], false) := by decide

/-- T3. -/
theorem test_select :
    look (fun t => (sessionOf t, requests t)) .select (discovered uid9 (on [one [0#8]])) =
      some ((some ⟨0#4, 1#32⟩, uid9, true), [(0x20#8, 0x25#8, uid9)]) := by decide

/-- T5 (two frames), T8 (no UID). -/
theorem test_select_fails :
    look sessionOf .select (discovered uid9 (on [.frames [[0#8], [0#8]]])) =
        some (some ⟨2#4, 0#32⟩, [], false) ∧
      shows .select (on []) = some (some ⟨2#4, 0#32⟩, 0) := by decide

/-- T11, T12. -/
theorem test_establish :
    look sessionOf .establish (on [one [0#8]] [uidAnswer]) = some (some ⟨0#4, 1#32⟩, uid9, true) ∧
      look sessionOf .establish (on [one [1#8]] [uidAnswer]) =
        some (some ⟨2#4, 0#32⟩, [], false) := by decide

/-! ### ARBITER -/

/-- D1, D3. -/
theorem test_dataDirection :
    look (fun t => (t.rsp, t.regs.dir)) .dataDirection (on d1) = some (some ⟨0#4, 1#32⟩, 1#2) ∧
      look (fun t => (t.rsp, t.regs.dir, t.log)) .dataDirection
          (on [one [0#8, 0#8, 0#8, 0#8, 0#8], one [0#8, 4#8, 0#8, 0#8, 0#8]]) =
        some (some ⟨7#4, 0#32⟩, 0#2, [.invalidConfiguration]) := by decide

/-- A state with the lock check on and pattern 0b10 for I2C_NFC. -/
def locking (iss : List IssueAnswer) : State :=
  { on iss with
    inp := { Inputs.initial with lockCheckEn := true }
    cfg := { Cfg.defaults with lockPatternI2cNfc := 0b10#2, lockPatternNfcI2c := 0b01#2 } }

/-- D10, D11. -/
theorem test_dataDirection_lock :
    shows .dataDirection (locking (d1 ++ [one [0#8, 0x20#8, 2#8, 0#8, 0#8]])) =
        some (some ⟨0#4, 1#32⟩, 3) ∧
      look (fun t => (t.rsp, t.log)) .dataDirection
          (locking (d1 ++ [one [0#8, 0x20#8, 1#8, 0#8, 0#8]])) =
        some (some ⟨0#4, 3#32⟩, []) := by decide

/-- STATE and WDG_T0 beside the response. -/
def tickOf (t : State) : Option Response × BitVec 3 × BitVec 32 := (t.rsp, t.regs.state, t.regs.wdgT0)

/-- At a time. -/
def atTime (n : BitVec 32) (s : State) : State := { s with inp := { s.inp with now := n } }

/-- K3, K1. -/
theorem test_hInit :
    look tickOf .tick (atTime 7#32 (on [one [0#8]] [uidAnswer])) =
        some (some ⟨0#4, 1#32⟩, 1#3, 7#32) ∧
      look tickOf .hInit (atTime 7#32 (on [] [.noTag])) = some (some ⟨1#4, 0#32⟩, 0#3, 0#32) := by
  decide

/-- K5, K6. -/
theorem test_hTriggerEnergyHarvest :
    look tickOf .hTriggerEnergyHarvest
        (atTime 7#32 (inState 1#3 (on [one [0#8, 0x80#8, 0#8, 0#8, 0#8]]))) =
      some (some ⟨0#4, 2#32⟩, 2#3, 7#32) ∧
    look tickOf .tick (atTime 7#32 (inState 1#3 (on [one [0#8, 0x7F#8, 0#8, 0#8, 0#8]]))) =
      some (some ⟨0#4, 1#32⟩, 1#3, 0#32) := by decide

/-- K15: an empty mailbox message, and the flag clear afterwards. -/
theorem test_hWaitI2cToNfc :
    look tickOf .hWaitI2cToNfc
        (atTime 7#32 (inState 2#3 (on (d1 ++ [ready, one [0#8, 0#8, 0#8, 0#8, 0#8], notReady])))) =
      some (some ⟨0#4, 3#32⟩, 3#3, 7#32) := by decide

/-- Wd1, Wd2: 5000 does not fire, 5001 does, before any call. -/
theorem test_watchdog :
    look tickOf .tick (atTime 5000#32 (inState 2#3 (on d2))) =
        some (some ⟨0#4, 2#32⟩, 2#3, 0#32) ∧
      look (fun t => (t.rsp, t.regs.exitCause, t.regs.halt, t.env.history.length)) .tick
          (atTime 5001#32 (inState 2#3 (on d2))) =
        some (some ⟨8#4, 0x104#32⟩, 8#4, true, 0) := by decide

/-- K17, K16. -/
theorem test_hWaitNfcToI2c :
    look tickOf .hWaitNfcToI2c
        (atTime 7#32 (inState 3#3
          (sending [0#8, 0#8, 0xFF#8, 0xFF#8] (on (d2 ++ [one [0#8], one [0#8]]))))) =
      some (some ⟨0#4, 2#32⟩, 2#3, 7#32) ∧
    shows .tick (inState 3#3 (on d1)) = some (some ⟨0#4, 3#32⟩, 2) := by decide

/-- K21. -/
theorem test_hFatal :
    look (fun t => (t.rsp, t.regs.halt, t.regs.exitCause)) .hFatal (inState 4#3 (on [])) =
      some (some ⟨9#4, 0x104#32⟩, true, 9#4) := by decide

/-- K22, codes 5, 6 and 7. -/
theorem test_hFatal_default :
    shows .tick (inState 5#3 (on [])) = some (some ⟨9#4, 0x104#32⟩, 0) ∧
      shows (.hFatalDefault57 true) (inState 7#3 (on [])) = some (some ⟨9#4, 0x104#32⟩, 0) ∧
      shows .hFatalDefault6 (inState 6#3 (on [])) = some (some ⟨9#4, 0x104#32⟩, 0) := by decide

/-- 2.6, halted block. -/
theorem test_halted :
    look (fun t => (t.rsp, t.regs.exitCause, t.log, t.env.history.length)) .mbxWrite haltedState =
      some (some ⟨9#4, 0x104#32⟩, 8#4, [.fatal], 0) := by decide

/-- 2.6, reserved op. -/
theorem test_reservedOp : shows (.reservedOp 0#2) (on []) = some (some ⟨12#4, 0#32⟩, 0) := by decide

/-! ### Frames -/

/-- R98, R100. -/
theorem test_readFrames :
    look (fun t => t.env.value) (.tReadConfig 0xA0#8) (on [one [9#8, 1#8, 2#8, 3#8, 4#8, 5#8]]) =
        some (.read (some [1#8, 2#8, 3#8, 4#8])) ∧
      look (fun t => (t.env.value, requests t)) (.tReadSram 0x01#8 2) (on [one [9#8, 1#8]]) =
        some (.read none, [(0x10#8, 0xD2#8, [0x01#8, 0x01#8])]) := by decide

/-- R99, R101: any one frame is success. -/
theorem test_writeFrames :
    look (fun t => t.env.value) (.tWriteConfig 0x00#8 0xFF#32) (on [one [0xFF#8]]) =
        some (.wrote true) ∧
      look (fun t => t.env.value) (.tWriteSram 0x00#8 [1#8, 2#8, 3#8, 4#8]) (on [.frames []]) =
        some (.wrote false) := by decide

/-- R102, R103. -/
theorem test_sessionFrames :
    look (fun t => t.env.value) .tSelect (discovered uid9 (on [one [0#8]])) = some (.selected true) ∧
      look (fun t => t.env.value) .tInventory (on [] [uidAnswer]) = some (.found (some uid9)) := by
  decide

/-! ### Steps -/

/-- A command reaches its meaning through the port, with its inputs. -/
theorem test_step_command :
    ((nextOf (step { on [one [0#8, 0x20#8, 1#8, 0#8, 0#8]] with
        pending := [.command (applyDirective (.now 3#32) Inputs.initial) 0x1A00000000000#52] })).map
      fun t => (t.rsp, t.inp.now, t.pending)) = some (some ⟨0#4, 0x120#32⟩, 3#32, []) := by decide

/-- The word placed by `withFetchWord` is what the next step runs: MBX_READ 63 from reset answers 6. -/
theorem test_withFetchWord :
    ((nextOf (step (State.reset.withFetchWord 56 0x6003F00000000))).map fun t => t.rsp) =
      some (some ⟨6#4, 0#32⟩) := by decide

/-- A reset ends the halt (R227, R250). -/
theorem test_step_reset :
    ((nextOf (step { haltedState with pending := [.reset] })).map fun t =>
      (t.regs.state, t.regs.halt, t.regs.exitCause, t.rsp)) = some (0#3, false, 0#4, none) := by decide

/-- R203, U2: a call that never returns hangs the block. -/
theorem test_hang :
    exec (.readBlock 0xA0#8)
        { on [] with env := { Env.initial with issues := [.fail], hangAt := some 0 } } =
      .fault .transportHang := rfl

/-! ### Witnesses: for each obligation, a state and operands that meet its hypotheses, clause by clause -/

/-- A whole frame of the default configuration (1 header byte, 4 payload bytes), and a short one. -/
def f5 : List Byte := [0#8, 0x20#8, 0x01#8, 0#8, 0#8]
def f4 : List Byte := [0#8, 0x20#8, 0x01#8, 0#8]

/-- The state an instruction leads to, or the state itself. -/
def then_ (i : Instr) (s : State) : State := (nextOf (exec i s)).getD s

theorem witness_DecodeEncodeRoundTrip :
    Cfg.defaults.CodesDistinct ∧ UidBytes uid9 ∧ UidBytes (List.replicate 16 0#8) ∧
      wellFormed (.tReadSram 0x3F#8 15) = true ∧
      wellFormed (.tWriteSram 0x00#8 (List.replicate 60 0#8)) = true := by decide

theorem witness_EncodeDecodeOffCommandPort :
    (Code.frame (.issue 0x20#8 0x25#8 uid9)).format ≠ .cmd52 ∧
      decode Cfg.defaults (.frame (.issue 0x20#8 0x25#8 uid9)) = .ok .tSelect ∧
      decode Cfg.defaults (.state 7#3) = .ok (.hFatalDefault57 true) := ⟨by decide, rfl, rfl⟩

theorem witness_EncodeFlagsRange :
    (0x80#8).getLsbD 7 = true ∧ (0x7F#8).getLsbD 7 = false ∧
      (Options.ofBits 0#9).inventory = false ∧ (Options.ofBits 4#9).inventory = true := by decide

theorem witness_ReadBlockFetchesOrFails :
    Running (on [one f4]) ∧ ¬ValidAddress 0x40#8 ∧ ¬ValidAddress 0x9F#8 ∧ ¬ValidAddress 0xA9#8 ∧
      ValidAddress 0x3F#8 ∧ ValidAddress 0xA0#8 ∧ ValidAddress 0xA8#8 ∧
      nextIssue (on [one f5]) = .frames (f5 :: []) ∧ WholeFrame (on [one f5]).cfg 4 f5 ∧
      EmptyAnswer (on [one f4]).cfg 4 (nextIssue (on [one f4])) ∧
      EmptyAnswer (on [.fail]).cfg 4 (nextIssue (on [.fail])) :=
  ⟨by decide, by decide, by decide, by decide, by decide, by decide, by decide, rfl, by decide,
    .inr (.inr ⟨f4, [], rfl, by decide⟩), .inl rfl⟩

theorem witness_ReadByteSlicesOrFails :
    Running (on [.fail]) ∧ 3 < (4#8).toNat ∧ (3#8).toNat ≤ 3 ∧ ¬ValidAddress 0x40#8 ∧
      ValidAddress 0x3F#8 ∧ EmptyAnswer (on [.fail]).cfg 4 (nextIssue (on [.fail])) ∧
      nextIssue (on [one f5]) = .frames (f5 :: []) ∧ WholeFrame (on [one f5]).cfg 4 f5 :=
  ⟨by decide, by decide, by decide, by decide, by decide, .inl rfl, rfl, by decide⟩

theorem witness_ReadRegisterBitMasksField :
    Running (on [one f5]) ∧ nextIssue (on [one f5]) = .frames (f5 :: []) ∧
      WholeFrame (on [one f5]).cfg 4 f5 ∧
      EmptyAnswer (on [.frames []]).cfg 4 (nextIssue (on [.frames []])) ∧ 9 ≤ (9#8).toNat ∧
      9 ≤ (0xFF#8).toNat :=
  ⟨by decide, rfl, by decide, .inr (.inl rfl), by decide, by decide⟩

theorem witness_ReadConfigBitMasksField :
    Running (on [one f5]) ∧ nextIssue (on [one f5]) = .frames (f5 :: []) ∧
      WholeFrame (on [one f5]).cfg 4 f5 ∧
      EmptyAnswer (on [.frames []]).cfg 4 (nextIssue (on [.frames []])) ∧ 1 ≤ (1#8).toNat :=
  ⟨by decide, rfl, by decide, .inr (.inl rfl), by decide⟩

theorem witness_WriteBlockFiresAndForgets :
    Running (on [one []]) ∧ ¬ValidAddress 0x50#8 ∧ ValidAddress 0xA1#8 ∧
      nextIssue (on [one []]) = .frames ([] :: []) ∧ NoFrame (nextIssue (on [.frames []])) :=
  ⟨by decide, by decide, by decide, rfl, .inr rfl⟩

theorem witness_WriteThenReadReturnsValue :
    let sent : List Byte := [0x44#8, 0x33#8, 0x22#8, 0x11#8]
    let s := on [one [0#8], one ([0#8] ++ sent ++ [0xEE#8])]
    Running s ∧ ValidAddress 0xA1#8 ∧ [0#8].length = s.cfg.hdrBytes ∧
      s.env.issues = .frames ([0#8] :: []) :: .frames (([0#8] ++ sent ++ [0xEE#8]) :: []) :: [] ∧
      sent = [(0x11223344#32).extractLsb' 0 8, (0x11223344#32).extractLsb' 8 8,
        (0x11223344#32).extractLsb' 16 8, (0x11223344#32).extractLsb' 24 8] := by
  exact ⟨by decide, by decide, rfl, rfl, by decide⟩

theorem witness_SchedulePartitionsPayload :
    (0 ≤ 62) ∧ (62 ≤ 62) ∧ schedule 16 = [(0x01#8, 15), (0x10#8, 1)] := by decide

/-- M2, and M9's boundary: 62 blocks in five chunks, here all empty. -/
theorem witness_MbxReadAssemblesChunks :
    let f : List Byte := [0#8, 0xF8#8, 0#8, 0#8, 0#8]
    let chunks : List IssueAnswer := [.fail, .fail, .fail, .fail, .fail]
    let s := on (.frames (f :: []) :: (chunks ++ []))
    Running s ∧ (0#8).toNat ≤ 62 ∧ s.env.issues = .frames (f :: []) :: (chunks ++ []) ∧
      WholeFrame s.cfg 4 f ∧ mailboxCount 0#8 (frameByte s.cfg f 0) ≤ 62 ∧
      chunks.length = (schedule (mailboxCount 0#8 (frameByte s.cfg f 0))).length :=
  ⟨by decide, by decide, rfl, by decide, by decide, by decide⟩

theorem witness_CompleteMailboxReadIsWholeBlocks :
    let s := on [one [0#8, 4#8, 0#8, 0#8, 0#8], one f5]
    Running s ∧ ∃ t, exec (.mbxRead 0#8) s = .next t ∧ t.regs.lastErr = 0#4 ∧
      t.regs.rxComplete = true := ⟨by decide, _, rfl, rfl, rfl⟩

theorem witness_MbxReadFailuresKeepRx :
    let f : List Byte := [0#8, 249#8, 0#8, 0#8, 0#8]
    Running (on [one f]) ∧ 62 < (63#8).toNat ∧ (62#8).toNat ≤ 62 ∧
      EmptyAnswer (on [one f4]).cfg 4 (nextIssue (on [one f4])) ∧
      nextIssue (on [one f]) = .frames (f :: []) ∧ WholeFrame (on [one f]).cfg 4 f ∧
      249 ≤ (frameByte (on [one f]).cfg f 0).toNat :=
  ⟨by decide, by decide, by decide, .inr (.inr ⟨f4, [], rfl, by decide⟩), rfl, by decide, by decide⟩

/-- The clauses of MBX_WRITE: TX_NBLK 0 and 16; 1 and 15 with each pair of answers. -/
theorem witness_MbxWritePayloadThenTerminator :
    let s (n : Byte) (iss : List IssueAnswer) : State :=
      { on iss with inp := applyDirective (.txn n) Inputs.initial }
    Running (s 0#8 []) ∧ (s 0#8 []).inp.txNblk.toNat = 0 ∧ 15 < (s 16#8 []).inp.txNblk.toNat ∧
      1 ≤ (s 1#8 []).inp.txNblk.toNat ∧ (s 15#8 []).inp.txNblk.toNat ≤ 15 ∧
      (s 1#8 [.fail]).env.issues = .fail :: [] ∧ NoFrame .fail ∧
      (s 15#8 [one [], .frames []]).env.issues = one [] :: .frames [] :: [] ∧
      NoFrame (.frames []) ∧ one [] = .frames ([] :: []) ∧
      (s 15#8 [one [], one [0#8]]).env.issues = one [] :: one [0#8] :: [] ∧
      ¬NoFrame (one [0#8]) :=
  ⟨by decide, by decide, by decide, by decide, by decide, rfl, .inl rfl, rfl, .inr rfl, rfl, rfl,
    by rintro (h | h) <;> cases h⟩

theorem witness_DiscoverOutcomes :
    Running (on [] [.noTag]) ∧ nextInventory (on [] [.noTag]) = .noTag ∧
      nextInventory (on [] [.uid 1#8 []]) = .uid 1#8 [] ∧ ([] : List Byte).length ≤ 15 ∧
      nextInventory (on [] [.uid 1#8 (List.replicate 15 0#8)]) = .uid 1#8 (List.replicate 15 0#8) ∧
      (List.replicate 15 0#8).length ≤ 15 := ⟨by decide, rfl, rfl, by decide, rfl, by decide⟩

theorem witness_SelectOutcomes :
    Running (discovered uid9 (on [one [0#8]])) ∧ (on []).regs.sessUidLen = 0#5 ∧
      (discovered uid9 (on [one [0#8]])).regs.sessUidLen ≠ 0#5 ∧
      nextIssue (discovered uid9 (on [one [0#8]])) = .frames [[0x00#8]] ∧
      nextIssue (discovered uid9 (on [.frames [[0#8], [0#8]]])) ≠ .frames [[0x00#8]] ∧
      (Options.ofBits (on []).cfg.optsSelectCmd).address = true ∧
      (Options.ofBits (on []).cfg.optsSelectCmd).inventory = false :=
  ⟨by decide, rfl, by decide, rfl, by decide, rfl, rfl⟩

theorem witness_EstablishOutcomes :
    Running (on [one [0#8]] [uidAnswer]) ∧ nextInventory (on [] [.noTag]) = .noTag ∧
      nextInventory (on [one [0#8]] [uidAnswer]) = uidAnswer ∧
      (on [one [0#8]] [uidAnswer]).env.issues = one [0#8] :: [] ∧ one [0#8] = .frames [[0x00#8]] ∧
      one [0#8, 0#8] ≠ .frames [[0x00#8]] := ⟨by decide, rfl, rfl, rfl, rfl, by decide⟩

theorem witness_EstablishLeavesNoPartialSession :
    (on [one [1#8]] [uidAnswer]).regs.halt = false ∧
      ∃ t, exec .establish (on [one [1#8]] [uidAnswer]) = .next t := ⟨rfl, _, rfl⟩

theorem witness_DirectionDecodeTable :
    ((0#8, 4#8) : Byte × Byte) ≠ (0x0#8, 0x3#8) ∧ ((0#8, 4#8) : Byte × Byte) ≠ (0x1#8, 0x4#8) := by
  decide

theorem witness_DataDirectionReadsTwoFields :
    let f2 : List Byte := [0#8, 3#8, 0#8, 0#8, 0#8]
    let s := on [one f5, one f2]
    Running s ∧ s.inp.lockCheckEn = false ∧
      s.env.issues = .frames (f5 :: []) :: .frames (f2 :: []) :: [] ∧ WholeFrame s.cfg 4 f5 ∧
      WholeFrame s.cfg 4 f2 := ⟨by decide, rfl, rfl, by decide, by decide⟩

theorem witness_DataDirectionChecksLocks :
    let s := locking [one f5, one f5, one f5]
    Running s ∧ s.inp.lockCheckEn = true ∧
      s.env.issues = .frames (f5 :: []) :: .frames (f5 :: []) :: .frames (f5 :: []) :: [] ∧
      WholeFrame s.cfg 4 f5 := ⟨by decide, rfl, rfl, by decide⟩

theorem witness_DataDirectionFailures :
    Running (on [.fail]) ∧ (on [.fail]).env.issues = .fail :: [] ∧
      EmptyAnswer (on [.fail]).cfg 4 .fail ∧
      (on [one f5, one f4]).env.issues = one f5 :: one f4 :: [] ∧ one f5 = .frames (f5 :: []) ∧
      WholeFrame (on [one f5, one f4]).cfg 4 f5 ∧ EmptyAnswer (on [one f5, one f4]).cfg 4 (one f4) ∧
      Running (locking [one f5, one f5, .fail]) ∧
      (locking [one f5, one f5, .fail]).inp.lockCheckEn = true ∧
      (locking [one f5, one f5, .fail]).env.issues = one f5 :: one f5 :: .fail :: [] ∧
      WholeFrame (locking []).cfg 4 f5 ∧ EmptyAnswer (locking []).cfg 4 .fail :=
  ⟨by decide, rfl, .inl rfl, rfl, rfl, by decide, .inr (.inr ⟨f4, [], rfl, by decide⟩), by decide, rfl,
    rfl, by decide, .inl rfl⟩

/-- K1 and K3 meet the two clauses. -/
theorem witness_InitTickEstablishes :
    Running (on [] [.noTag]) ∧ (on [] [.noTag]).regs.state = 0#3 ∧
      (then_ .establish (on [] [.noTag])).regs.lastErr ≠ 0#4 ∧
      (then_ .establish (on [one [0#8]] [uidAnswer])).regs.lastErr = 0#4 := by decide

/-- K5 and K7 meet the two clauses. -/
theorem witness_TriggerTickReadsLoadOk :
    let s (r : IssueAnswer) := inState 1#3 (on [r])
    Running (s .fail) ∧ (s .fail).regs.state = 1#3 ∧
      (then_ (.readRegisterBit 5#8) (s (one [0#8, 0x80#8, 0#8, 0#8, 0#8]))).rsp =
        some ⟨0#4, 0x80#32⟩ ∧
      (then_ (.readRegisterBit 5#8) (s .fail)).rsp ≠ some ⟨0#4, 0x80#32⟩ := by decide

/-- Wd2: the boundary, 5001. -/
theorem witness_WatchdogHaltsTheBlock :
    let s := atTime 5001#32 (inState 2#3 (on []))
    Running s ∧ s.regs.state = 2#3 ∧ 5000 < (s.inp.now - s.regs.wdgT0).toNat := by decide

/-- K8, K10, K11, K12, K13 and K15 (and the boundary 5000) meet the clauses in turn. -/
theorem witness_WaitI2cToNfcTickComposes :
    let s (iss : List IssueAnswer) := atTime 5000#32 (inState 2#3 (on iss))
    let t1 (iss : List IssueAnswer) := then_ .dataDirection (s iss)
    let t2 (iss : List IssueAnswer) := then_ (.readRegisterBit 0#8) (t1 (d1 ++ iss))
    let t3 (iss : List IssueAnswer) := then_ (.mbxRead 0#8) (t2 (ready :: iss))
    let t4 (r : IssueAnswer) := then_ (.readRegisterBit 0#8) (t3 [notReady, r])
    (Running (s []) ∧ (s []).regs.state = 2#3 ∧
      ((s []).inp.now - (s []).regs.wdgT0).toNat ≤ 5000) ∧
      (t1 d2).rsp ≠ some ⟨0#4, 1#32⟩ ∧ (t1 d1).rsp = some ⟨0#4, 1#32⟩ ∧
      (t2 [notReady]).rsp ≠ some ⟨0#4, 0x20#32⟩ ∧ (t2 [ready]).rsp = some ⟨0#4, 0x20#32⟩ ∧
      (t3 [.fail]).regs.lastErr ≠ 0#4 ∧
      ((t3 [ready, .fail, .fail, .fail]).regs.lastErr = 0#4 ∧
        (t3 [ready, .fail, .fail, .fail]).regs.rxComplete = false) ∧
      ((t3 [notReady]).regs.lastErr = 0#4 ∧ (t3 [notReady]).regs.rxComplete = true) ∧
      (t4 ready).rsp ≠ some ⟨0#4, 0#32⟩ ∧ (t4 notReady).rsp = some ⟨0#4, 0#32⟩ := by decide

/-- K16, K19 and K17 meet the clauses in turn. -/
theorem witness_WaitNfcToI2cTickComposes :
    let s (iss : List IssueAnswer) := inState 3#3 (on iss)
    Running (s []) ∧ (s []).regs.state = 3#3 ∧
      (then_ .dataDirection (s d1)).rsp ≠ some ⟨0#4, 2#32⟩ ∧
      (then_ .dataDirection (s d2)).rsp = some ⟨0#4, 2#32⟩ ∧
      (then_ .mbxWrite (then_ .dataDirection (s d2))).regs.lastErr ≠ 0#4 ∧
      (then_ .mbxWrite (then_ .dataDirection
        (sending [0#8, 0#8, 0xFF#8, 0xFF#8] (s (d2 ++ [one [], one []]))))).regs.lastErr = 0#4 := by
  decide

theorem witness_FatalHandlerHaltsTheBlock :
    Running (inState 4#3 (on [])) ∧ 4 ≤ (inState 4#3 (on [])).regs.state.toNat ∧
      4 ≤ (inState 7#3 (on [])).regs.state.toNat := by decide

theorem witness_HaltedBlockAnswersFatal :
    Instr.format (.mbxRead 63#8) = .cmd52 ∧
      haltedState.regs.halt = true ∧ haltedState.env.hangAt = none ∧
      (∀ rest, haltedState.pending ≠ .reset :: rest) ∧ ∃ t, step haltedState = .next t :=
  ⟨rfl, rfl, rfl, fun _ h => (by cases h), _, rfl⟩

theorem witness_ReservedOpRefused : Running (on []) := by decide

theorem witness_TransitionTable :
    Instr.format .tick = .cmd52 ∧ Instr.format .mbxWrite = .cmd52 ∧ (on []).regs.halt = false ∧
      (∃ t, exec .tick (inState 5#3 (on [])) = .next t) ∧ ∃ t, exec .mbxWrite (on []) = .next t :=
  ⟨rfl, rfl, rfl, ⟨_, rfl⟩, ⟨_, rfl⟩⟩

theorem witness_WatchdogReload :
    ∃ t, exec .tick (on [one [0#8]] [uidAnswer]) = .next t := ⟨_, rfl⟩

theorem witness_TickCallsBounded :
    ∃ t, exec .tick (inState 2#3 (on (d1 ++ [notReady]))) = .next t := ⟨_, rfl⟩

theorem witness_TickCallsNamedAddressesOnly :
    ∃ t, exec .tick (inState 3#3 (on d1)) = .next t := ⟨_, rfl⟩

theorem witness_TickKeepsSessionAfterInit :
    (inState 3#3 (on d1)).regs.state ≠ 0#3 ∧ ∃ t, exec .tick (inState 3#3 (on d1)) = .next t :=
  ⟨by decide, _, rfl⟩

theorem witness_TickRecordsAtMostOneKind :
    ∃ t, exec .tick (on [] [.noTag]) = .next t := ⟨_, rfl⟩

theorem witness_ReadFramesDeliverPayload :
    Running (on [one f5]) ∧ nextIssue (on [one f5]) = .frames (f5 :: []) ∧
      WholeFrame (on [one f5]).cfg (4 * 1) f5 ∧
      EmptyAnswer (on [one f5]).cfg (4 * 15) (nextIssue (on [one f5])) ∧
      EmptyAnswer (on [.fail]).cfg 4 (nextIssue (on [.fail])) ∧ (0 = 0 ∨ 15 < 0) ∧
      (16 = 0 ∨ 15 < 16) ∧ StoppedBlock haltedState :=
  ⟨by decide, rfl, by decide, .inr (.inr ⟨f5, [], rfl, by decide⟩), .inl rfl, .inl rfl,
    .inr (by decide), by decide⟩

theorem witness_WriteFramesTestForAFrame :
    Running (on [.fail]) ∧ (false = false ↔ NoFrame (nextIssue (on [.fail]))) ∧
      (true = false ↔ NoFrame (nextIssue (on [one []]))) ∧
      (List.replicate 60 0#8).length = 4 * 15 ∧
      (∀ m, 1 ≤ m → m ≤ 15 → (List.replicate 64 0#8).length ≠ 4 * m) ∧ StoppedBlock haltedState :=
  ⟨by decide, ⟨fun _ => .inl rfl, fun _ => rfl⟩,
    ⟨fun h => (by cases h), fun h => (by rcases h with h | h <;> cases h)⟩, by decide,
    fun m _ h => (by rw [List.length_replicate]; omega), by decide⟩

theorem witness_SelectAndInventoryFrames :
    Running (on [one [0#8]] [uidAnswer]) ∧
      (true = true ↔ nextIssue (on [one [0#8]]) = .frames [[0x00#8]]) ∧
      (false = true ↔ nextIssue (on [one [1#8]]) = .frames [[0x00#8]]) ∧
      nextInventory (on [] [.noTag]) = .noTag ∧ nextInventory (on [] [uidAnswer]) = uidAnswer ∧
      StoppedBlock haltedState :=
  ⟨by decide, ⟨fun _ => rfl, fun _ => rfl⟩,
    ⟨fun h => (by cases h), fun h => (by revert h; decide)⟩, rfl, rfl, by decide⟩

theorem witness_StepRunsDecodedInstruction :
    decode Cfg.defaults (.cmd 0x1A00000000000#52) = .ok (.readBlock 0xA0#8) ∧
      decode Cfg.defaults (.opts 0x180#9) = .ok (decodeOptions 0x180#9) ∧
      ({ on [] with pending := [.command Inputs.initial 0x1A00000000000#52] }).pending =
        .command Inputs.initial 0x1A00000000000#52 :: [] ∧
      ({ on [] with pending := [.options 0x180#9] }).pending = .options 0x180#9 :: [] ∧
      ({ haltedState with pending := [.reset] }).pending = .reset :: [] ∧
      State.reset.pending = [] := ⟨rfl, rfl, rfl, rfl, rfl, rfl⟩

theorem witness_ResetValues :
    ({ haltedState with pending := [.reset] }).pending = .reset :: [] := rfl

/-- A step of a sound, halted state, and one of a state with a disciplined history that is not empty. -/
theorem witness_StepKeepsRegsSound :
    SoundRegs haltedState.regs ∧
      ∃ t, step { haltedState with pending := [.command Inputs.initial 0#52] } = .next t :=
  ⟨⟨by decide, by decide, by decide, by decide, by decide, by decide, by decide, by decide⟩, _, rfl⟩

/-- A payload write and its terminator, after a read of 15 blocks. -/
def pastCalls : List Call :=
  [.issue 0x10#8 0xD2#8 [0x01#8, 0x0E#8] .fail,
    .issue 0x10#8 0xD3#8 [0x00#8, 0x00#8, 1#8, 2#8, 3#8, 4#8] (one [0#8]),
    .issue 0x10#8 0xD3#8 [0x3F#8, 0x00#8, 0xFF#8, 0xFF#8, 0xFF#8, 0xFF#8] .fail]

theorem pastCalls_disciplined : DisciplinedHistory Cfg.defaults pastCalls := by
  constructor
  · intro fl p r h
    simp [pastCalls, Cfg.defaults] at h
    exact ⟨0x01#8, 0x0E#8, h.2.1, by decide⟩
  · intro before fl p r after h
    rcases before with _ | ⟨c0, _ | ⟨c1, _ | ⟨c2, _ | ⟨c3, l⟩⟩⟩⟩ <;>
      simp [pastCalls, Cfg.defaults] at h
    exact ⟨[c0], 0x10#8, [0x00#8, 1#8, 2#8, 3#8, 4#8], [0#8], [], by rw [← h.2.1]; rfl⟩

theorem witness_StepKeepsHistoryDisciplined :
    let s : State := { on [one []] with
      env := { Env.initial with issues := [one []], history := pastCalls }
      pending := [.command Inputs.initial 0x1A00000000000#52] }
    s.cfg.CodesDistinct ∧ DisciplinedHistory s.cfg s.env.history ∧ ∃ t, step s = .next t :=
  ⟨by decide, pastCalls_disciplined, _, rfl⟩

theorem witness_StepExtendsRecords :
    ∃ t, step { on [one []] with pending := [.command Inputs.initial 0x1A00000000000#52] } = .next t :=
  ⟨_, rfl⟩

/-- A8 (the exception) and A7 (WRITE_BLOCK without it); A9 and TICK meet the other implication too. -/
theorem witness_StatusIsLastErr :
    let i : Instr := .writeBlock 0x00#8 0#32
    i.format = .cmd52 ∧ Instr.format .tick = .cmd52 ∧
      (∃ t, exec i (on [.fail]) = .next t ∧ t.regs.lastErr = 10#4) ∧
      (∃ t, exec i (on [one []]) = .next t ∧ t.regs.lastErr ≠ 10#4) ∧
      ∃ t, exec .tick (on [] [.noTag]) = .next t ∧ ¬∃ a w, Instr.tick = .writeBlock a w :=
  ⟨rfl, rfl, ⟨_, rfl, rfl⟩, ⟨_, rfl, by decide⟩, _, rfl, by rintro ⟨_, _, h⟩; cases h⟩

theorem witness_HaltedUntilReset :
    let s : State := { haltedState with pending := [.command Inputs.initial 0#52] }
    s.regs.halt = true ∧ (∀ rest, s.pending ≠ .reset :: rest) ∧ ∃ t, step s = .next t :=
  ⟨rfl, fun _ h => (by cases h), _, rfl⟩

/-- Call number 0 never returns: READ_BLOCK would make it, a reserved op ends before it. -/
theorem witness_WellFormedInstructionsComplete :
    let s : State := hanging (some 0) (on [.fail])
    wellFormed .tick = true ∧ (on []).env.hangAt = none ∧ wellFormed (.tReadSram 0#8 0) = false ∧
      exec (.readBlock 0xA0#8) s = .fault .transportHang ∧
      s.env.hangAt = some 0 ∧ s.env.history.length ≤ 0 ∧
      (∃ t, exec (.readBlock 0xA0#8) (hanging none s) = .next t ∧ 0 < t.env.history.length) ∧
      ∃ t, exec (.reservedOp 0#2) (hanging none s) = .next t ∧ t.env.history.length ≤ 0 :=
  ⟨rfl, rfl, rfl, rfl, rfl, by decide, ⟨_, rfl, by decide⟩, _, rfl, by decide⟩

theorem witness_CommandsWriteTheirRegistersOnly :
    (∃ t, exec (.readBlock 0xA0#8) (on [.fail]) = .next t) ∧
      (∃ t, exec (.writeBlock 0xA0#8 0#32) (on [.fail]) = .next t) ∧
      (∃ t, exec (.mbxRead 63#8) (on []) = .next t) ∧
      (∃ t, exec .establish (on [] [.noTag]) = .next t) ∧
      ∃ t, exec .dataDirection (on [.fail]) = .next t :=
  ⟨⟨_, rfl⟩, ⟨_, rfl⟩, ⟨_, rfl⟩, ⟨_, rfl⟩, ⟨_, rfl⟩⟩

end Sys2Proof.Tests
end

section
/-! What a step does, one equation per kind of event the host presents (00_scope.md R4, R252), and what
the decoder reads on the two ports of the host, where it refuses no word (30_encoding.md R92, R96). -/

namespace Sys2Proof

@[simp] theorem decode_cmd_eq_ok_iff (c : Cfg) (w : BitVec 52) (i : Instr) :
    decode c (.cmd w) = .ok i ↔ decodeCmd w = i := by simp [decode]

@[simp] theorem decode_opts_eq_ok_iff (c : Cfg) (v : BitVec 9) (i : Instr) :
    decode c (.opts v) = .ok i ↔ decodeOptions v = i := by simp [decode]

namespace Machine

variable {s : State} {rest : List HostEvent}

theorem step_of_idle (h : s.pending = []) : step s = .next s := by simp [step, h]

theorem step_of_reset (h : s.pending = .reset :: rest) :
    step s = .next (applyReset { s with pending := rest }) := by simp [step, h]

theorem step_of_options {v : BitVec 9} (h : s.pending = .options v :: rest) :
    step s = exec (decodeOptions v) { s with pending := rest } := by simp [step, h]

theorem step_of_command {inp : Inputs} {w : BitVec 52} (h : s.pending = .command inp w :: rest) :
    step s = exec (decodeCmd w) { s with inp := inp, pending := rest } := by simp [step, h]

end Machine
end Sys2Proof
end

section
namespace Sys2Proof.Machine

/-- Settles O45: each clause is the equation of `step` for its event; on the command and option ports the
decoder's answer is the instruction that equation runs. -/
theorem stepRunsDecodedInstruction : Obligations.StepRunsDecodedInstruction := by
  refine ⟨?command, ?options, ?reset, ?idle⟩
  case command =>
    intro s inp w rest i hp hd
    rw [step_of_command hp, (decode_cmd_eq_ok_iff s.cfg w i).mp hd]
  case options =>
    intro s v rest i hp hd
    rw [step_of_options hp, (decode_opts_eq_ok_iff s.cfg v i).mp hd]
  case reset => exact fun s rest hp => step_of_reset hp
  case idle => exact fun s hp => step_of_idle hp

end Sys2Proof.Machine
end

section
/-! What an operation of the block may do to the registers and the LOG (10_state.md R20, R24, R25), said
once per operation: which registers it writes, that LAST_ERR follows the LOG, and that sound registers
stay sound. A set of registers is given as the mask that blots them out: two register files that agree
under the mask differ in those registers alone. -/

namespace Sys2Proof.Machine

/-! ### Masks -/

def maskBlk (r : Regs) : Regs := { r with blk := 0#32 }

def maskDirection (r : Regs) : Regs := { r with blk := 0#32, dir := 0#2 }

def maskRx (r : Regs) : Regs :=
  { r with
    rxHdr := 0#8, rxBuf := Regs.reset.rxBuf, rxLen := 0#8, rxComplete := false, rxValid := false }

def maskSession (r : Regs) : Regs :=
  { r with sessUid := Regs.reset.sessUid, sessUidLen := 0#5, sessSelected := false }

/-- All a handler that does not halt the block may write. -/
def maskHandler (r : Regs) : Regs :=
  maskDirection (maskRx (maskSession { r with wdgT0 := 0#32 }))

def maskAll (_ : Regs) : Regs := Regs.reset

/-! ### The relation -/

/-- LAST_ERR once the kinds `ks` have been recorded on top of the value e. -/
def lastCode (e : BitVec 4) (ks : List Kind) : BitVec 4 := (ks.getLast?.map Kind.code).getD e

theorem lastCode_of_none {e : BitVec 4} {ks : List Kind} (h : ks.getLast? = none) :
    lastCode e ks = e := by simp [lastCode, h]

theorem lastCode_of_some {e : BitVec 4} {ks : List Kind} {k : Kind} (h : ks.getLast? = some k) :
    lastCode e ks = k.code := by simp [lastCode, h]

theorem lastCode_append (e : BitVec 4) (ks ls : List Kind) :
    lastCode e (ks ++ ls) = lastCode (lastCode e ks) ls := by
  cases h : ls.getLast? <;> simp [lastCode, h]

theorem Kind.code_le (k : Kind) : k.code.toNat ≤ 12 := by cases k <;> decide

/-- What an operation that writes the registers under the mask W, and LAST_ERR, may do. -/
structure Effect (W : Regs → Regs) (s t : State) : Prop extends Steady s t where
  regs : W { t.regs with lastErr := 0#4 } = W { s.regs with lastErr := 0#4 }
  recorded : ∃ ks, t.log = s.log ++ ks ∧ t.regs.lastErr = lastCode s.regs.lastErr ks
  sound : SoundRegs s.regs → SoundRegs t.regs

variable {W : Regs → Regs} {s t u : State}

theorem Effect.trans (h : Effect W s t) (k : Effect W t u) : Effect W s u where
  toSteady := h.toSteady.trans k.toSteady
  regs := k.regs.trans h.regs
  recorded := by
    obtain ⟨ks, hlog, herr⟩ := h.recorded
    obtain ⟨ls, klog, kerr⟩ := k.recorded
    exact ⟨ks ++ ls, by rw [klog, hlog, List.append_assoc], by rw [kerr, herr, lastCode_append]⟩
  sound := fun hs => k.sound (h.sound hs)

/-- A mask that blots out more allows more. -/
theorem Effect.mono {V : Regs → Regs} (h : Effect W s t) (hV : ∀ r, V (W r) = V r) :
    Effect V s t where
  toSteady := h.toSteady
  regs := by rw [← hV, h.regs, hV]
  recorded := h.recorded
  sound := h.sound

theorem Effect.all (h : Effect W s t) : Effect maskAll s t := h.mono fun _ => rfl

/-- The state an operation ends in, read off its result. -/
theorem Effect.of {α : Type} {x : α × State} {r : α} (k : Effect W s x.2) (h : x = (r, t)) :
    Effect W s t := by rw [h] at k; exact k

/-- A change that leaves LAST_ERR and the LOG alone. -/
theorem Effect.ofQuiet (hst : Steady s t) (hW : W { t.regs with lastErr := 0#4 } =
    W { s.regs with lastErr := 0#4 }) (hlog : t.log = s.log) (herr : t.regs.lastErr = s.regs.lastErr)
    (hs : SoundRegs s.regs → SoundRegs t.regs) : Effect W s t :=
  ⟨hst, hW, ⟨[], by rw [hlog, List.append_nil], herr⟩, hs⟩

/-- A change of something other than a register or the LOG. -/
theorem Effect.ofSameRegs (hst : Steady s t) (hr : t.regs = s.regs) (hlog : t.log = s.log) :
    Effect W s t :=
  .ofQuiet hst (by rw [hr]) hlog (by rw [hr]) (by rw [hr]; exact id)

/-! ### The register writes, the answers and the frames -/

theorem record_effect (k : Kind) (s : State) : Effect W s (record k s) where
  toSteady := record_steady k s
  regs := rfl
  recorded := ⟨[k], rfl, rfl⟩
  sound h := { h with lastErr := k.code_le }

theorem respondErr_effect (d : BitVec 32) (s : State) : Effect W s (respondErr d s) :=
  .ofSameRegs (respond_steady ..) rfl rfl

theorem respond_effect (st : BitVec 4) (d : BitVec 32) (s : State) : Effect W s (respond st d s) :=
  .ofSameRegs (respond_steady ..) rfl rfl

theorem setBlk_effect (v : BitVec 32) (s : State) : Effect maskBlk s (setBlk v s) :=
  .ofQuiet (setBlk_steady v s) rfl rfl rfl fun h => { h with }

theorem setDir_effect (v : BitVec 2) (s : State) : Effect maskDirection s (setDir v s) :=
  .ofQuiet (.ofEnv rfl rfl rfl rfl rfl) rfl rfl rfl fun h => { h with }

theorem setWdgT0_effect (v : BitVec 32) (s : State) : Effect maskHandler s (setWdgT0 v s) :=
  .ofQuiet (.ofEnv rfl rfl rfl rfl rfl) rfl rfl rfl fun h => { h with }

theorem setRx_effect (hdr : Byte) {p : List Byte} (c : Bool) (s : State) (hp : p.length ≤ 248)
    (hp4 : p.length % 4 = 0) : Effect maskRx s (setRx hdr p c s) := by
  have hlen : (setRx hdr p c s).regs.rxLen.toNat = p.length := by
    simp only [setRx_regs, BitVec.toNat_ofNat]; omega
  exact .ofQuiet (setRx_steady ..) rfl rfl rfl fun h =>
    { h with rxLen := by rw [hlen]; exact hp, rxWholeBlocks := by rw [hlen]; exact hp4 }

theorem clearSession_effect (s : State) : Effect maskSession s (clearSession s) :=
  .ofQuiet (.ofEnv rfl rfl rfl rfl rfl) rfl rfl rfl fun h =>
    { h with selectedHasUid := fun hs => Bool.noConfusion hs, uidLen := Nat.zero_le _ }

theorem setDiscovered_effect {u : List Byte} (s : State) (hu : u.length ≤ 16) :
    Effect maskSession s (setDiscovered u s) := by
  have hlen : (setDiscovered u s).regs.sessUidLen.toNat ≤ 16 := by
    simp only [setDiscovered_regs, BitVec.toNat_ofNat]; omega
  exact .ofQuiet (.ofEnv rfl rfl rfl rfl rfl) rfl rfl rfl fun h =>
    { h with selectedHasUid := fun hs => Bool.noConfusion hs, uidLen := hlen }

/-- Only a session with a UID is ever selected (R22). -/
theorem setSelected_effect (s : State) (hu : s.regs.sessUidLen ≠ 0#5) :
    Effect maskSession s (setSelected s) :=
  .ofQuiet (.ofEnv rfl rfl rfl rfl rfl) rfl rfl rfl fun h => { h with selectedHasUid := fun _ => hu }

/-- STATE may be written as long as it says Fatal exactly when the block is halted (R197). -/
theorem setState_effect (v : BitVec 3) (s : State) (hv : v.toNat ≤ 4)
    (hf : v = stFatal ↔ s.regs.halt = true) : Effect maskAll s (setState v s) :=
  .ofQuiet (.ofEnv rfl rfl rfl rfl rfl) rfl rfl rfl fun h =>
    { h with fatalHalted := hf, stateCode := hv }

theorem afterIssue_effect (fl cc : Byte) (p : List Byte) (r : IssueAnswer) (v : FrameValue)
    (s : State) : Effect W s (afterIssue fl cc p r v s) :=
  .ofSameRegs (afterIssue_steady ..) rfl rfl

theorem afterInventory_effect (r : InvAnswer) (s : State) : Effect W s (afterInventory r s) :=
  .ofSameRegs (afterInventory_steady ..) rfl rfl

theorem tReadConfig_effect (a : Byte) (s : State) : Effect W s (tReadConfig a s).2 :=
  afterIssue_effect ..

theorem tWriteConfig_effect (a : Byte) (v : BitVec 32) (s : State) :
    Effect W s (tWriteConfig a v s).2 := afterIssue_effect ..

theorem tReadSram_effect (a : Byte) (n : Nat) (s : State) : Effect W s (tReadSram a n s).2 :=
  afterIssue_effect ..

theorem tWriteSram_effect (a : Byte) (d : List Byte) (s : State) :
    Effect W s (tWriteSram a d s).2 := afterIssue_effect ..

theorem tSelect_effect (s : State) : Effect W s (tSelect s).2 := afterIssue_effect ..

theorem tInventory_effect (s : State) : Effect W s (tInventory s).2 := afterInventory_effect ..

/-! ### The operations -/

theorem readBlock_effect (a : Byte) (s : State) : Effect maskBlk s (readBlock a s).2 := by
  obtain ⟨_, h⟩ | ⟨_, _, h⟩ | ⟨_, b, _, _, h⟩ := readBlock_cases a s <;> rw [h]
  · exact record_effect ..
  · exact (tReadConfig_effect a s).trans (record_effect ..)
  · exact (tReadConfig_effect a s).trans (setBlk_effect ..)

theorem readByte_effect (a : Byte) (k : Nat) (s : State) : Effect maskBlk s (readByte a k s).2 := by
  obtain ⟨_, h⟩ | ⟨_, e, s1, hb, h⟩ | ⟨_, b, s1, hb, h⟩ := readByte_cases a k s <;> rw [h]
  · exact record_effect ..
  · exact (readBlock_effect a s).of hb
  · exact (readBlock_effect a s).of hb

theorem readField_effect (row : Option (Byte × Nat × Byte)) (s : State) :
    Effect maskBlk s (readField row s).2 := by
  obtain ⟨_, h⟩ | ⟨a, o, m, _, ⟨e, s1, hb, h⟩ | ⟨v, s1, hb, h⟩⟩ := readField_cases row s <;> rw [h]
  · exact record_effect ..
  · exact (readByte_effect a o s).of hb
  · exact (readByte_effect a o s).of hb

theorem readNamed_effect (f : Field) (s : State) : Effect maskBlk s (readNamed f s).2 :=
  readField_effect ..

theorem writeBlock_effect (a : Byte) (v : BitVec 32) (s : State) :
    Effect id s (writeBlock a v s).2 := by
  obtain ⟨_, h⟩ | ⟨_, _, h⟩ | ⟨_, _, h⟩ := writeBlock_cases a v s <;> rw [h]
  · exact record_effect ..
  · exact tWriteConfig_effect a v s
  · exact (tWriteConfig_effect a v s).trans (record_effect ..)

theorem readChunks_effect (l : List (Byte × Nat)) (s : State) : Effect W s (readChunks l s).2 := by
  have h := readChunks_frame l s
  exact .ofSameRegs (readChunks_steady l s) (by rw [h]) (by rw [h])

/-- The chunks of a schedule fetch no more than the blocks it starts short of. -/
theorem scheduleFrom_sum_le (total fuel fetched : Nat) :
    ((scheduleFrom total fuel fetched).map Prod.snd).sum ≤ total - fetched := by
  induction fuel generalizing fetched with
  | zero => simp [scheduleFrom]
  | succ fuel ih =>
    unfold scheduleFrom
    split
    · have hrest := ih (fetched + min chunkMaxBlocks (total - fetched))
      simp only [List.map_cons, List.sum_cons]
      omega
    · simp

/-- A mailbox read fills RXBUF with whole blocks, at most the 62 it holds (R162). -/
theorem mbxRead_effect (tb : Byte) (s : State) : Effect maskRx s (mbxRead tb s).2 := by
  obtain ⟨_, h⟩ | ⟨_, _, h⟩ | ⟨_, p, _, ⟨_, h⟩ | ⟨hn, m, s2, hc, h⟩⟩ := mbxRead_cases tb s <;> rw [h]
  · exact record_effect ..
  · exact (tReadSram_effect ..).trans (record_effect ..)
  · exact (tReadSram_effect ..).trans (record_effect ..)
  · have hlen := readChunks_length (schedule (mailboxBlocks tb (blockByte p 0)))
      (tReadSram mbxHdrAddr 1 s).2
    have hsum := scheduleFrom_sum_le (mailboxBlocks tb (blockByte p 0))
      (mailboxBlocks tb (blockByte p 0)) 0
    rw [hc] at hlen
    obtain ⟨hwhole, hle⟩ := hlen
    have hfits : m.bytes.length ≤ 248 := by
      unfold schedule at hle
      dsimp only at hle
      omega
    exact (tReadSram_effect ..).trans
      (((readChunks_effect ..).of hc).trans (setRx_effect _ _ s2 hfits hwhole))

theorem mbxWrite_effect (s : State) : Effect id s (mbxWrite s).2 := by
  obtain ⟨_, h⟩ | ⟨_, _, ok1, s1, h1, ⟨_, h⟩ | ⟨_, ok2, s2, h2, ⟨_, h⟩ | ⟨_, h⟩⟩⟩ :=
    mbxWrite_cases s <;> rw [h]
  · exact record_effect ..
  · exact ((tWriteSram_effect _ _ s).of h1).trans (record_effect ..)
  · exact ((tWriteSram_effect _ _ s).of h1).trans
      (((tWriteSram_effect _ _ s1).of h2).trans (record_effect ..))
  · exact ((tWriteSram_effect _ _ s).of h1).trans ((tWriteSram_effect _ _ s1).of h2)

theorem discover_effect (s : State) : Effect maskSession s (discover s).2 := by
  obtain ⟨_, h⟩ | ⟨u, _, _, hu, h⟩ := discover_cases s <;> rw [h]
  · exact (tInventory_effect s).trans ((clearSession_effect _).trans (record_effect ..))
  · exact (tInventory_effect s).trans (setDiscovered_effect _ hu)

theorem select_effect (s : State) : Effect maskSession s (select s).2 := by
  obtain ⟨_, h⟩ | ⟨hu, _, h⟩ | ⟨_, _, h⟩ := select_cases s <;> rw [h]
  · exact record_effect ..
  · exact (tSelect_effect s).trans (setSelected_effect _ hu)
  · exact (tSelect_effect s).trans ((clearSession_effect _).trans (record_effect ..))

theorem establish_effect (s : State) : Effect maskSession s (establish s).2 := by
  obtain ⟨k, s1, hd, h⟩ | ⟨s1, hd, h⟩ := establish_cases s <;> rw [h]
  · exact (discover_effect s).of hd
  · exact ((discover_effect s).of hd).trans (select_effect s1)

theorem finishDirection_effect (d : Direction) (s : State) :
    Effect maskDirection s (finishDirection d s).2 := by
  unfold finishDirection
  split
  · exact (record_effect ..).trans (setDir_effect ..)
  · exact setDir_effect ..

theorem Effect.direction (h : Effect maskBlk s t) : Effect maskDirection s t := h.mono fun _ => rfl

theorem dataDirection_effect (s : State) : Effect maskDirection s (dataDirection s).2 := by
  obtain ⟨k, s1, h1, h⟩ | ⟨pt, s1, h1, hrest⟩ := dataDirection_cases s
  · rw [h]; exact ((readNamed_effect _ s).of h1).direction
  have e1 := ((readNamed_effect _ s).of h1).direction
  obtain ⟨k, s2, h2, h⟩ | ⟨ed, s2, h2, hrest⟩ := hrest
  · rw [h]; exact e1.trans ((readNamed_effect _ s1).of h2).direction
  have e2 := e1.trans ((readNamed_effect _ s1).of h2).direction
  obtain ⟨_, h⟩ | ⟨_, ⟨k, s3, h3, h⟩ | ⟨v, s3, h3, h⟩⟩ := hrest <;> rw [h]
  · exact e2.trans (finishDirection_effect ..)
  · exact e2.trans ((readByte_effect _ _ s2).of h3).direction
  · exact e2.trans (((readByte_effect _ _ s2).of h3).direction.trans (finishDirection_effect ..))

end Sys2Proof.Machine
end

section
/-! The handlers and the tick (44_arbiter_fsm.md R190 to R199), by the same relation: a handler halts the
block, or leaves it running and names a STATE other than Fatal. -/

namespace Sys2Proof.Machine

variable {W : Regs → Regs} {s t : State}

theorem takeHalt_regs (k : Kind) (s : State) :
    (takeHalt k s).regs =
      { s.regs with
        state := stFatal, halt := true, lastErr := k.code
        exitCause := if k = .fatal ∧ s.regs.exitCause ≠ 0#4 then s.regs.exitCause else k.code } := by
  unfold takeHalt; split <;> rfl

/-- The two kinds that halt the block (R223). -/
def Kind.Halts (k : Kind) : Prop := k = .timeout ∨ k = .fatal

/-- EXIT_CAUSE keeps an earlier cause only when there is one, and a sound one is 8 or 9. -/
theorem takeHalt_sound {k : Kind} (hk : k.Halts) (hs : SoundRegs s.regs) :
    SoundRegs (takeHalt k s).regs := by
  have hcause := hs.exitCause
  rw [takeHalt_regs]
  refine { hs with
    exitCause := ?_, fatalHalted := by simp, stateCode := Nat.le_refl 4, lastErr := k.code_le }
  simp only [if_true]
  split
  next hold =>
    split at hcause
    · exact hcause
    · exact absurd hcause hold.2
  next => obtain rfl | rfl := hk <;> simp [Kind.code]

theorem takeHalt_effect {k : Kind} (hk : k.Halts) (s : State) : Effect maskAll s (takeHalt k s) where
  toSteady := takeHalt_steady k s
  regs := rfl
  recorded := ⟨[k], takeHalt_log k s, takeHalt_lastErr k s⟩
  sound := takeHalt_sound hk

theorem Effect.handler_of_blk (h : Effect maskBlk s t) : Effect maskHandler s t := h.mono fun _ => rfl

theorem Effect.handler_of_direction (h : Effect maskDirection s t) : Effect maskHandler s t :=
  h.mono fun _ => rfl

theorem Effect.handler_of_rx (h : Effect maskRx s t) : Effect maskHandler s t := h.mono fun _ => rfl

theorem Effect.handler_of_session (h : Effect maskSession s t) : Effect maskHandler s t :=
  h.mono fun _ => rfl

theorem Effect.handler_of_id (h : Effect id s t) : Effect maskHandler s t := h.mono fun _ => rfl

theorem Effect.halt_eq (h : Effect maskHandler s t) : t.regs.halt = s.regs.halt := by
  have hmask := congrArg Regs.halt h.regs
  exact hmask

/-- A handler's result from s: STATE's next code is one of a running block, and the registers that say
whether it runs are untouched. -/
def StaysRunning (s : State) (x : BitVec 3 × State) : Prop :=
  x.1.toNat ≤ 3 ∧ Effect maskHandler s x.2

theorem Effect.stays (h : Effect maskHandler s t) {v : BitVec 3} (hv : v.toNat ≤ 3) :
    StaysRunning s (v, t) := ⟨hv, h⟩

theorem StaysRunning.after {x : BitVec 3 × State} (h : Effect maskHandler s t)
    (k : StaysRunning t x) : StaysRunning s x := ⟨k.1, h.trans k.2⟩

theorem hInit_staysRunning (now : BitVec 32) (s : State) : StaysRunning s (hInit now s) := by
  unfold hInit
  have he := (establish_effect s).handler_of_session
  rcases h : establish s with ⟨_ | k, s1⟩
  · exact ((he.of h).trans (setWdgT0_effect ..)).stays (by split <;> decide)
  · exact (he.of h).stays (by decide)

theorem hTriggerEnergyHarvest_staysRunning (s : State) :
    StaysRunning s (hTriggerEnergyHarvest s) := by
  unfold hTriggerEnergyHarvest
  have hr := (readNamed_effect .ehLoadOk s).handler_of_blk
  rcases h : readNamed .ehLoadOk s with ⟨v | k, s1⟩
  · exact (hr.of h).stays (by split <;> decide)
  · exact (hr.of h).stays (by decide)

theorem waitReadMailbox_staysRunning (s : State) : StaysRunning s (waitReadMailbox s) := by
  unfold waitReadMailbox
  have hm := (mbxRead_effect 0#8 s).handler_of_rx
  rcases h : mbxRead 0#8 s with ⟨m | k, s1⟩
  · replace hm := hm.of h
    dsimp only
    split
    · have hr := (readNamed_effect .sramDataRdy s1).handler_of_blk
      rcases h2 : readNamed .sramDataRdy s1 with ⟨v | k, s2⟩
      · exact (hm.trans (hr.of h2)).stays (by split <;> decide)
      · exact (hm.trans (hr.of h2)).stays (by decide)
    · exact (hm.trans (record_effect ..)).stays (by decide)
  · exact (hm.of h).stays (by decide)

theorem waitPoll_staysRunning (s : State) : StaysRunning s (waitPoll s) := by
  unfold waitPoll
  have hd := (dataDirection_effect s).handler_of_direction
  rcases h : dataDirection s with ⟨d | k, s1⟩
  · replace hd := hd.of h
    dsimp only
    split
    · have hr := (readNamed_effect .sramDataRdy s1).handler_of_blk
      rcases h2 : readNamed .sramDataRdy s1 with ⟨v | k, s2⟩
      · dsimp only
        split
        · exact (waitReadMailbox_staysRunning s2).after (hd.trans (hr.of h2))
        · exact (hd.trans (hr.of h2)).stays (by decide)
      · exact (hd.trans (hr.of h2)).stays (by decide)
    · exact hd.stays (by decide)
  · exact (hd.of h).stays (by decide)

theorem hWaitNfcToI2c_staysRunning (s : State) : StaysRunning s (hWaitNfcToI2c s) := by
  unfold hWaitNfcToI2c
  have hd := (dataDirection_effect s).handler_of_direction
  rcases h : dataDirection s with ⟨d | k, s1⟩
  · replace hd := hd.of h
    dsimp only
    split
    · have hw := (mbxWrite_effect s1).handler_of_id
      rcases h2 : mbxWrite s1 with ⟨_ | k, s2⟩
      · exact (hd.trans (hw.of h2)).stays (by decide)
      · exact (hd.trans (hw.of h2)).stays (by decide)
    · exact hd.stays (by decide)
  · exact (hd.of h).stays (by decide)

/-- Everything a handler can do: halt the block and name Fatal, or leave it running. -/
theorem runHandler_cases (h : Handler) (now : BitVec 32) (s : State) :
    (∃ k, k.Halts ∧ runHandler h now s = (stFatal, takeHalt k s)) ∨
      StaysRunning s (runHandler h now s) := by
  cases h with
  | init => exact .inr (hInit_staysRunning now s)
  | triggerEnergyHarvest => exact .inr (hTriggerEnergyHarvest_staysRunning s)
  | waitI2cToNfc =>
    unfold runHandler hWaitI2cToNfc
    dsimp only
    split
    · exact .inl ⟨.timeout, .inl rfl, rfl⟩
    · exact .inr (waitPoll_staysRunning s)
  | waitNfcToI2c => exact .inr (hWaitNfcToI2c_staysRunning s)
  | fatal => exact .inl ⟨.fatal, .inr rfl, rfl⟩

theorem reloadWatchdog_effect (cur next : BitVec 3) (now : BitVec 32) (s : State) :
    Effect maskHandler s (reloadWatchdog cur next now s) := by
  unfold reloadWatchdog
  split
  · exact setWdgT0_effect ..
  · exact .ofSameRegs (.refl s) rfl rfl

/-- A tick of a running block: where the handler halted it STATE becomes Fatal with HALT = 1, and
elsewhere HALT stays 0 and STATE becomes a code below Fatal. -/
theorem tickBody_effect (h : Handler) (s : State) (hrun : s.regs.halt = false) :
    Effect maskAll s (tickBody h s) := by
  unfold tickBody
  obtain ⟨k, hk, hr⟩ | hr := runHandler_cases h s.inp.now s
  · rw [hr]
    have hreload := reloadWatchdog_effect s.regs.state stFatal s.inp.now (takeHalt k s)
    have hhalt := hreload.halt_eq.trans (takeHalt_halt k s)
    exact (takeHalt_effect hk s).trans (hreload.all.trans
      ((setState_effect _ _ (by decide) (by simp [hhalt])).trans (respondErr_effect ..)))
  · rcases hx : runHandler h s.inp.now s with ⟨next, s1⟩
    rw [hx] at hr
    obtain ⟨hnext, heff⟩ := hr
    dsimp only at hnext heff
    have hreload := heff.trans (reloadWatchdog_effect s.regs.state next s.inp.now s1)
    have hhalt := hreload.halt_eq.trans hrun
    have hnf : next ≠ stFatal := by rintro rfl; exact absurd hnext (by decide)
    exact hreload.all.trans ((setState_effect _ _ (Nat.le_succ_of_le hnext)
      (by simp [hhalt, hnf])).trans (respondErr_effect ..))

end Sys2Proof.Machine
end

section
/-! The commands on the command port (30_encoding.md R90 to R94, 10_state.md R25): what each may write, and
that its status is LAST_ERR at its end, but for WRITE_BLOCK (41_accessor.md R144). -/

namespace Sys2Proof.Machine

variable {W : Regs → Regs} {s t : State}

/-- The response's status is LAST_ERR (R25). -/
def AnswersLastErr (t : State) : Prop := ∃ d, t.rsp = some { status := t.regs.lastErr, data := d }

theorem respondErr_answersLastErr (d : BitVec 32) (s : State) : AnswersLastErr (respondErr d s) :=
  ⟨d, rfl⟩

/-- An effect that ends in the response R25 gives every command but WRITE_BLOCK. -/
structure Reply (W : Regs → Regs) (s t : State) : Prop extends Effect W s t where
  status : AnswersLastErr t

theorem Effect.reply (h : Effect W s t) (d : BitVec 32) : Reply W s (respondErr d t) :=
  ⟨h.trans (respondErr_effect d t), respondErr_answersLastErr d t⟩

theorem Reply.all (h : Reply W s t) : Reply maskAll s t := ⟨h.toEffect.all, h.status⟩

theorem answer_reply {α : Type} (layout : α → BitVec 32) {x : Result α × State}
    (h : Effect W s x.2) : Reply W s (answer layout x) := by
  rcases x with ⟨v | k, s1⟩ <;> exact h.reply _

theorem answerSelected_reply {x : Result Unit × State} (h : Effect W s x.2) :
    Reply W s (answerSelected x) := by
  rcases x with ⟨v | k, s1⟩ <;> exact h.reply _

theorem answerHalted_reply (s : State) : Reply W s (answerHalted s) :=
  (record_effect .fatal s).reply (tickData s.regs.state true)

theorem tickBody_answersLastErr (h : Handler) (s : State) : AnswersLastErr (tickBody h s) := by
  unfold tickBody
  exact respondErr_answersLastErr ..

/-! ### A command, from its body -/

/-- A command clears LAST_ERR; then its body runs, or, in a halted block, the halted answer is given. -/
theorem command_effect {body : State → State} (h : command body s = .next t)
    (hb : ∀ s, s.regs.halt = false → Effect W s (body s)) : Effect W (setLastErr 0#4 s) t := by
  obtain ⟨_, rfl⟩ | ⟨hrun, rfl⟩ := command_next h
  · exact (answerHalted_reply (setLastErr 0#4 s)).toEffect
  · exact hb _ hrun

theorem command_answersLastErr {body : State → State} (h : command body s = .next t)
    (hb : ∀ s, AnswersLastErr (body s)) : AnswersLastErr t := by
  obtain ⟨_, rfl⟩ | ⟨_, rfl⟩ := command_next h
  · exact (answerHalted_reply (W := id) s).status
  · exact hb _

theorem command_reply {body : State → State} (h : command body s = .next t)
    (hb : ∀ s, Reply W s (body s)) : Reply W (setLastErr 0#4 s) t :=
  ⟨command_effect h fun s _ => (hb s).toEffect, command_answersLastErr h fun s => (hb s).status⟩

/-! ### The commands -/

theorem execTick_reply (h : execTick s = .next t) : Reply maskAll (setLastErr 0#4 s) t :=
  ⟨command_effect h fun s => tickBody_effect _ s,
    command_answersLastErr h fun s => tickBody_answersLastErr _ s⟩

theorem execReadBlock_reply {a : Byte} (h : execReadBlock a s = .next t) :
    Reply maskBlk (setLastErr 0#4 s) t :=
  command_reply h fun s => answer_reply _ (readBlock_effect a s)

theorem execReadByte_reply {a b : Byte} (h : execReadByte a b s = .next t) :
    Reply maskBlk (setLastErr 0#4 s) t :=
  command_reply h fun s => answer_reply _ (readByte_effect a b.toNat s)

theorem execReadRegisterBit_reply {a : Byte} (h : execReadRegisterBit a s = .next t) :
    Reply maskBlk (setLastErr 0#4 s) t :=
  command_reply h fun s => answer_reply _ (readField_effect _ s)

theorem execReadConfigBit_reply {a : Byte} (h : execReadConfigBit a s = .next t) :
    Reply maskBlk (setLastErr 0#4 s) t :=
  command_reply h fun s => answer_reply _ (readField_effect _ s)

theorem execWriteBlock_effect {a : Byte} {w : BitVec 32} (h : execWriteBlock a w s = .next t) :
    Effect id (setLastErr 0#4 s) t := by
  refine command_effect h fun s _ => ?_
  have hw := writeBlock_effect a w s
  rcases hx : writeBlock a w s with ⟨_ | k, s1⟩
  · exact (hw.of hx).trans (respond_effect ..)
  · exact (hw.of hx).trans (respondErr_effect ..)

theorem execMbxRead_reply {b : Byte} (h : execMbxRead b s = .next t) :
    Reply maskRx (setLastErr 0#4 s) t := by
  refine command_reply h fun s => ?_
  have hr := mbxRead_effect b s
  rcases hx : mbxRead b s with ⟨m | k, s1⟩ <;> exact (hr.of hx).reply _

theorem execMbxWrite_reply (h : execMbxWrite s = .next t) : Reply id (setLastErr 0#4 s) t :=
  command_reply h fun s => answer_reply _ (mbxWrite_effect s)

theorem execDiscover_reply (h : execDiscover s = .next t) :
    Reply maskSession (setLastErr 0#4 s) t := by
  refine command_reply h fun s => ?_
  have hd := discover_effect s
  rcases hx : discover s with ⟨_ | k, s1⟩ <;> exact (hd.of hx).reply _

theorem execSelect_reply (h : execSelect s = .next t) : Reply maskSession (setLastErr 0#4 s) t :=
  command_reply h fun s => answerSelected_reply (select_effect s)

theorem execEstablish_reply (h : execEstablish s = .next t) :
    Reply maskSession (setLastErr 0#4 s) t :=
  command_reply h fun s => answerSelected_reply (establish_effect s)

theorem execDataDirection_reply (h : execDataDirection s = .next t) :
    Reply maskDirection (setLastErr 0#4 s) t :=
  command_reply h fun s => answer_reply _ (dataDirection_effect s)

theorem execReservedOp_reply {oo : BitVec 2} (h : execReservedOp oo s = .next t) :
    Reply id (setLastErr 0#4 s) t :=
  command_reply h fun s => (record_effect .invalidOp s).reply 0#32

/-- Every command but WRITE_BLOCK replies with LAST_ERR. -/
theorem exec_reply {i : Instr} (hf : i.format = .cmd52) (hw : ¬∃ a w, i = .writeBlock a w)
    (h : exec i s = .next t) : Reply maskAll (setLastErr 0#4 s) t := by
  cases i with
  | tick => exact execTick_reply h
  | readBlock a => exact (execReadBlock_reply h).all
  | readByte a b => exact (execReadByte_reply h).all
  | readRegisterBit a => exact (execReadRegisterBit_reply h).all
  | readConfigBit a => exact (execReadConfigBit_reply h).all
  | writeBlock a w => exact absurd ⟨a, w, rfl⟩ hw
  | mbxRead b => exact (execMbxRead_reply h).all
  | mbxWrite => exact (execMbxWrite_reply h).all
  | discover => exact (execDiscover_reply h).all
  | select => exact (execSelect_reply h).all
  | establish => exact (execEstablish_reply h).all
  | dataDirection => exact (execDataDirection_reply h).all
  | reservedOp oo => exact (execReservedOp_reply (oo := oo) h).all
  | _ => cases hf

theorem exec_effect {i : Instr} (hf : i.format = .cmd52) (h : exec i s = .next t) :
    Effect maskAll (setLastErr 0#4 s) t := by
  by_cases hw : ∃ a w, i = .writeBlock a w
  · obtain ⟨a, w, rfl⟩ := hw
    exact (execWriteBlock_effect h).all
  · exact (exec_reply hf hw h).toEffect

/-- WRITE_BLOCK answers 0 exactly where it leaves WriteError in LAST_ERR: a refused address and the halted
block leave another kind, and a write that went through leaves none (R144). -/
theorem execWriteBlock_status {a : Byte} {w : BitVec 32} (h : execWriteBlock a w s = .next t) :
    (t.regs.lastErr ≠ 10#4 ∧ AnswersLastErr t) ∨
      (t.regs.lastErr = 10#4 ∧ ∃ d, t.rsp = some { status := 0#4, data := d }) := by
  have fatal_ne : Kind.fatal.code ≠ 10#4 := by decide
  have address_ne : Kind.invalidAddress.code ≠ 10#4 := by decide
  have zero_ne : 0#4 ≠ 10#4 := by decide
  obtain ⟨_, rfl⟩ | ⟨_, rfl⟩ := command_next h
  · exact .inl ⟨fatal_ne, (answerHalted_reply (W := id) s).status⟩
  · obtain ⟨_, hx⟩ | ⟨_, _, hx⟩ | ⟨_, _, hx⟩ := writeBlock_cases a w (setLastErr 0#4 s) <;> rw [hx]
    · exact .inl ⟨address_ne, respondErr_answersLastErr ..⟩
    · exact .inl ⟨zero_ne, 0#32, rfl⟩
    · exact .inr ⟨rfl, 0#32, rfl⟩

/-- Every command of a halted block is the halted answer (R201). -/
theorem exec_next_of_halted {i : Instr} (hf : i.format = .cmd52) (hh : s.regs.halt = true)
    (h : exec i s = .next t) : t = answerHalted s := by
  have halted {body : State → State} (hc : command body s = .next t) : t = answerHalted s := by
    rw [command_halted hh] at hc
    exact (complete_next hc).symm
  cases i with
  | tick | readBlock | readByte | readRegisterBit | readConfigBit | writeBlock | mbxRead | mbxWrite
  | discover | select | establish | dataDirection | reservedOp =>
    dsimp only [exec] at h
    exact halted h
  | _ => cases hf

/-! ### A step -/

theorem decodeCmd_format (w : BitVec 52) : (decodeCmd w).format = .cmd52 := by
  unfold decodeCmd
  dsimp only
  split <;> rfl

/-- Everything a step that completes can do: idle, reset, an option vector, or a command. -/
theorem step_next (h : step s = .next t) :
    t = s ∨ (∃ rest, s.pending = .reset :: rest ∧ t.regs = Regs.reset) ∨
      (t.regs = s.regs ∧ t.env = s.env) ∨
      ∃ i inp rest, i.format = .cmd52 ∧ exec i { s with inp := inp, pending := rest } = .next t := by
  rcases hp : s.pending with _ | ⟨_ | v | _, rest⟩
  case nil => rw [step_of_idle hp] at h; cases h; exact .inl rfl
  case cons.reset => rw [step_of_reset hp] at h; cases h; exact .inr (.inl ⟨rest, rfl, rfl⟩)
  case cons.options => rw [step_of_options hp] at h; cases h; exact .inr (.inr (.inl ⟨rfl, rfl⟩))
  case cons.command inp w =>
    rw [step_of_command hp] at h
    exact .inr (.inr (.inr ⟨_, inp, rest, decodeCmd_format w, h⟩))

end Sys2Proof.Machine
end

section
/-! The statements about the registers (10_state.md). -/

open Sys2Proof.Claims

namespace Sys2Proof.Machine

variable {s t : State}

theorem Steady.sameInputs (h : Steady s t) : SameInputs s t :=
  ⟨h.inp, h.feOpts, h.cfg, h.pending⟩

/-! An effect under a mask, as the frame of the registers it leaves. -/

theorem Effect.frame_id (h : Effect id s t) :
    t.regs = { s.regs with lastErr := t.regs.lastErr } :=
  congrArg (fun r : Regs => { r with lastErr := t.regs.lastErr }) h.regs

theorem Effect.frame_blk (h : Effect maskBlk s t) :
    t.regs = { s.regs with lastErr := t.regs.lastErr, blk := t.regs.blk } :=
  congrArg (fun r : Regs => { r with lastErr := t.regs.lastErr, blk := t.regs.blk }) h.regs

theorem Effect.frame_direction (h : Effect maskDirection s t) :
    t.regs = { s.regs with lastErr := t.regs.lastErr, blk := t.regs.blk, dir := t.regs.dir } :=
  congrArg (fun r : Regs =>
    { r with lastErr := t.regs.lastErr, blk := t.regs.blk, dir := t.regs.dir }) h.regs

theorem Effect.frame_session (h : Effect maskSession s t) :
    t.regs = { s.regs with
      lastErr := t.regs.lastErr, sessUid := t.regs.sessUid, sessUidLen := t.regs.sessUidLen,
      sessSelected := t.regs.sessSelected } :=
  congrArg (fun r : Regs => { r with
    lastErr := t.regs.lastErr, sessUid := t.regs.sessUid, sessUidLen := t.regs.sessUidLen,
    sessSelected := t.regs.sessSelected }) h.regs

theorem Effect.frame_rx (h : Effect maskRx s t) :
    t.regs = { s.regs with
      lastErr := t.regs.lastErr, rxHdr := t.regs.rxHdr, rxBuf := t.regs.rxBuf,
      rxLen := t.regs.rxLen, rxComplete := t.regs.rxComplete, rxValid := t.regs.rxValid } :=
  congrArg (fun r : Regs => { r with
    lastErr := t.regs.lastErr, rxHdr := t.regs.rxHdr, rxBuf := t.regs.rxBuf,
    rxLen := t.regs.rxLen, rxComplete := t.regs.rxComplete, rxValid := t.regs.rxValid }) h.regs

/-! ### The settled statements -/

theorem soundRegs_reset : SoundRegs Regs.reset :=
  ⟨by decide, by decide, by decide, by decide, by decide, by decide, by decide, by decide⟩

theorem disciplinedHistory_nil (c : Cfg) : DisciplinedHistory c [] := by
  refine ⟨fun _ _ _ h => absurd h List.not_mem_nil, fun before fl p r after h => ?_⟩
  simp at h

/-- Settles O47: sound registers and distinct codes are evaluated, the empty history makes no call. -/
theorem resetIsSound : Obligations.ResetIsSound :=
  ⟨soundRegs_reset, disciplinedHistory_nil _, by decide⟩

theorem setLastErr_zero_sound (s : State) (h : SoundRegs s.regs) :
    SoundRegs (setLastErr 0#4 s).regs := { h with lastErr := Nat.zero_le _ }

/-- Settles O48: a command clears LAST_ERR and then has the effect of its row, each of which keeps the
registers sound; of the other events only a reset writes a register. -/
theorem stepKeepsRegsSound : Obligations.StepKeepsRegsSound := by
  intro s t hs h
  obtain rfl | ⟨_, _, hreset⟩ | ⟨hsame, _⟩ | ⟨i, inp, rest, hf, hexec⟩ := step_next h
  · exact hs
  · rw [hreset]; exact soundRegs_reset
  · rw [hsame]; exact hs
  · exact (exec_effect hf hexec).sound (setLastErr_zero_sound _ hs)

/-- Settles O51: LAST_ERR follows the LOG from the 0 a command begins with; the status follows LAST_ERR,
and WRITE_BLOCK's is told apart by whether it left WriteError. -/
theorem statusIsLastErr : Obligations.StatusIsLastErr := by
  intro i s t hf h
  refine ⟨?recorded, ?status, ?writeError⟩
  case recorded =>
    obtain ⟨ks, hlog, herr⟩ := (exec_effect hf h).recorded
    refine ⟨ks, hlog, herr.trans ?_⟩
    cases hk : ks.getLast? with
    | none => exact lastCode_of_none hk
    | some k => exact lastCode_of_some hk
  case status =>
    intro hexc
    by_cases hw : ∃ a w, i = .writeBlock a w
    · obtain ⟨a, w, rfl⟩ := hw
      obtain ⟨_, hst⟩ | ⟨herr, _⟩ := execWriteBlock_status h
      · exact hst
      · exact absurd ⟨⟨a, w, rfl⟩, herr⟩ hexc
    · exact (exec_reply hf hw h).status
  case writeError =>
    rintro ⟨⟨a, w, rfl⟩, herr⟩
    obtain ⟨hne, _⟩ | ⟨_, hst⟩ := execWriteBlock_status h
    · exact absurd herr hne
    · exact hst

/-- Settles O52: a halted block answers every command with the Fatal record alone, an option vector
reaches no register, and a reset is excluded. -/
theorem haltedUntilReset : Obligations.HaltedUntilReset := by
  intro s t hh hnr h
  obtain rfl | ⟨rest, hp, _⟩ | ⟨hregs, henv⟩ | ⟨i, inp, rest, hf, hexec⟩ := step_next h
  · exact ⟨rfl, rfl⟩
  · exact absurd hp (hnr rest)
  · exact ⟨by rw [hregs], henv⟩
  · rw [exec_next_of_halted hf (by exact hh) hexec]
    exact ⟨rfl, rfl⟩

/-- Settles O54: each command's effect is under the mask of its family. -/
theorem commandsWriteTheirRegistersOnly : Obligations.CommandsWriteTheirRegistersOnly := by
  intro s t
  refine ⟨?reads, ?writes, ?mbxRead, ?session, ?direction⟩
  case reads =>
    rintro i ⟨a, b, hi⟩ h
    have heff : Effect maskBlk (setLastErr 0#4 s) t := by
      simp only [List.mem_cons, List.not_mem_nil, or_false] at hi
      obtain rfl | rfl | rfl | rfl := hi
      · exact (execReadBlock_reply h).toEffect
      · exact (execReadByte_reply h).toEffect
      · exact (execReadRegisterBit_reply h).toEffect
      · exact (execReadConfigBit_reply h).toEffect
    exact ⟨heff.sameInputs, heff.frame_blk⟩
  case writes =>
    rintro i ⟨a, w, oo, hi⟩ h
    have heff : Effect id (setLastErr 0#4 s) t := by
      simp only [List.mem_cons, List.not_mem_nil, or_false] at hi
      obtain rfl | rfl | rfl := hi
      · exact execWriteBlock_effect h
      · exact (execMbxWrite_reply h).toEffect
      · exact (execReservedOp_reply (oo := oo) h).toEffect
    exact ⟨heff.sameInputs, heff.frame_id⟩
  case mbxRead =>
    intro b h
    have heff := (execMbxRead_reply h).toEffect
    exact ⟨heff.sameInputs, heff.frame_rx⟩
  case session =>
    intro i hi h
    have heff : Effect maskSession (setLastErr 0#4 s) t := by
      simp only [List.mem_cons, List.not_mem_nil, or_false] at hi
      obtain rfl | rfl | rfl := hi
      · exact (execDiscover_reply h).toEffect
      · exact (execSelect_reply h).toEffect
      · exact (execEstablish_reply h).toEffect
    exact ⟨heff.sameInputs, heff.frame_session⟩
  case direction =>
    intro h
    have heff := (execDataDirection_reply h).toEffect
    exact ⟨heff.sameInputs, heff.frame_direction⟩

end Sys2Proof.Machine
end

section
/-! The transport primitives as the accessor uses them (00_scope.md R11, 20_memory.md R61, R62): the address
check, the bytes of a value and their 32-bit view, and the payload of a frame behind its header. -/

open Sys2Proof.Claims

namespace Sys2Proof.Machine

variable {s : State} {a : Byte} {v : BitVec 32}

theorem validCfg_iff (a : Byte) : validCfg a = true ↔ ValidAddress a := by simp [validCfg]

/-- The byte order of a CFG write is the one `blockval` reads back (R61, R62). -/
theorem blockval_bytesOfValue (v : BitVec 32) : blockval (bytesOfValue v) = v := by
  have glue {k m n start : Nat} (hm : start + m = n) :
      v.extractLsb' n k ++ v.extractLsb' start m = v.extractLsb' start (k + m) :=
    BitVec.extractLsb'_append_extractLsb'_eq_extractLsb' hm.symm
  simp [blockval, bytesOfValue, glue]

/-- The header is skipped unexamined and what follows the payload is ignored (R97). -/
theorem readPayload_append {hdr : List Byte} {n : Nat} (hh : hdr.length = n)
    (payload extra : List Byte) (fs : List (List Byte)) :
    readPayload n payload.length (.frames ((hdr ++ payload ++ extra) :: fs)) = some payload := by
  subst hh
  rw [readPayload_whole (by simp), List.append_assoc, List.drop_left, List.take_left]

theorem nextIssue_of_issues {r : IssueAnswer} {rest : List IssueAnswer}
    (h : s.env.issues = r :: rest) : nextIssue s = r := by simp [nextIssue, h]

/-- A WRITE_BLOCK the transport answers with a frame: its one call, and status 0 (R144). -/
theorem exec_writeBlock_answered (hs : Running s) (ha : ValidAddress a)
    (hok : writeOk (nextIssue s) = true) :
    exec (.writeBlock a v) s =
      .next (respond 0#4 0#32 (tWriteConfig a v (setLastErr 0#4 s)).2) := by
  obtain ⟨hrun, hhang⟩ := hs
  have hw : writeBlock a v (setLastErr 0#4 s) = (.ok (), (tWriteConfig a v (setLastErr 0#4 s)).2) := by
    obtain ⟨hbad, _⟩ | ⟨_, _, h⟩ | ⟨_, hfail, _⟩ := writeBlock_cases a v (setLastErr 0#4 s)
    · exact absurd ((validCfg_iff a).mpr ha) (by simp [hbad])
    · exact h
    · exact absurd (hok.symm.trans hfail) (by decide)
  dsimp only [exec, execWriteBlock]
  rw [command_of_running hrun hhang, hw]

/-- A READ_BLOCK whose answer carries the block b: its one call, BLK and the response (R140). -/
theorem exec_readBlock_delivered {b : List Byte} (hs : Running s) (ha : ValidAddress a)
    (hb : readPayload s.cfg.hdrBytes 4 (nextIssue s) = some b) :
    exec (.readBlock a) s =
      .next (respondErr (blockval b)
        (setBlk (blockval b) (tReadConfig a (setLastErr 0#4 s)).2)) := by
  obtain ⟨hrun, hhang⟩ := hs
  have hr : readBlock a (setLastErr 0#4 s) =
      (.ok b, setBlk (blockval b) (tReadConfig a (setLastErr 0#4 s)).2) := by
    obtain ⟨hbad, _⟩ | ⟨_, hnone, _⟩ | ⟨_, b', hb', _, h⟩ := readBlock_cases a (setLastErr 0#4 s)
    · exact absurd ((validCfg_iff a).mpr ha) (by simp [hbad])
    · exact absurd (hb.symm.trans hnone) (by simp)
    · obtain rfl : b = b' := Option.some.inj (hb.symm.trans hb')
      exact h
  dsimp only [exec, execReadBlock]
  rw [command_of_running hrun hhang, hr]
  rfl

/-- Settles O13: the write sends `bytesOfValue v` and uses up the first answer alone; the second carries
those bytes as its payload, and `blockval` puts them together again. -/
theorem writeThenReadReturnsValue : Obligations.WriteThenReadReturnsValue := by
  intro s a v g hdr sent extra gs fs rest hs ha hhdr hissues hsent
  have hnext : nextIssue s = .frames (g :: gs) := nextIssue_of_issues hissues
  have hwrite := exec_writeBlock_answered (v := v) hs ha ((writeOk_iff _).mpr ⟨g, gs, hnext⟩)
  set t := respond 0#4 0#32 (tWriteConfig a v (setLastErr 0#4 s)).2
  have hbytes : sent = bytesOfValue v := hsent
  have hissues' : t.env.issues = .frames ((hdr ++ sent ++ extra) :: fs) :: rest :=
    congrArg List.tail hissues
  have hdelivered : readPayload t.cfg.hdrBytes 4 (nextIssue t) = some sent := by
    rw [nextIssue_of_issues hissues', hbytes]
    exact readPayload_append hhdr (bytesOfValue v) extra fs
  have hvalue : blockval sent = v := by rw [hbytes, blockval_bytesOfValue]
  have hcall : t.env.history = s.env.history ++
      [.issue (tunnelFlags s.cfg) s.cfg.ccWriteConfig (a :: sent) (.frames (g :: gs))] := by
    rw [hbytes, ← hnext]; rfl
  have hread := exec_readBlock_delivered (s := t) hs ha hdelivered
  rw [hvalue] at hread
  exact ⟨t, _, hwrite, hcall, hread, rfl, rfl⟩

end Sys2Proof.Machine
end

section
/-! The records of the past (20_memory.md R72, 60_exceptions.md R232): what a step may do to the history of
calls, the LOG and the configuration. -/

namespace Sys2Proof.Machine

variable {W : Regs → Regs} {s t : State}

/-- Only a command touches the transport or the LOG: the other events leave both, and the configuration,
as they are (a reset by log entry 14). -/
theorem step_records_or_command (h : step s = .next t) :
    (t.env = s.env ∧ t.log = s.log ∧ t.cfg = s.cfg) ∨
      ∃ i inp rest, i.format = .cmd52 ∧ exec i { s with inp := inp, pending := rest } = .next t := by
  rcases hp : s.pending with _ | ⟨_ | v | _, rest⟩
  case nil => rw [step_of_idle hp] at h; cases h; exact .inl ⟨rfl, rfl, rfl⟩
  case cons.reset => rw [step_of_reset hp] at h; cases h; exact .inl ⟨rfl, rfl, rfl⟩
  case cons.options => rw [step_of_options hp] at h; cases h; exact .inl ⟨rfl, rfl, rfl⟩
  case cons.command inp w =>
    rw [step_of_command hp] at h
    exact .inr ⟨_, inp, rest, decodeCmd_format w, h⟩

theorem Effect.log_extended (h : Effect W s t) : s.log <+: t.log := by
  obtain ⟨ks, hlog, _⟩ := h.recorded
  exact ⟨ks, hlog.symm⟩

/-- Settles O50: a command's effect keeps the calls made and appends the kinds it records, and no other
event touches either record. -/
theorem stepExtendsRecords : Obligations.StepExtendsRecords := by
  intro s t h
  obtain ⟨henv, hlog, hcfg⟩ | ⟨i, inp, rest, hf, hexec⟩ := step_records_or_command h
  · exact ⟨by rw [henv], by rw [hlog], hcfg⟩
  · have heff := exec_effect hf hexec
    exact ⟨heff.history, heff.log_extended, heff.cfg⟩

end Sys2Proof.Machine
end

section
/-! The words of the four formats that carry no command code (30_encoding.md R90 to R96, R105): the fields of
a command word and what the decoder reads in them, STATE codes, and the bits of a flags byte. -/

namespace Sys2Proof

/-! ### The fields of a command word (R90) -/

/-- A field of an append that lies in its high part. -/
theorem extractLsb'_append_of_high {n m k start : Nat} {x : BitVec n} {y : BitVec m} {z : BitVec k}
    (h : m ≤ start) (hz : x.extractLsb' (start - m) k = z) : (x ++ y).extractLsb' start k = z :=
  (BitVec.extractLsb'_append_eq_of_le h).trans hz

section
variable (op : BitVec 4) (a b : Byte) (w : BitVec 32)

@[simp] theorem commandWord_op : (commandWord op a b w).extractLsb' 48 4 = op :=
  extractLsb'_append_of_high (by decide) <|
    extractLsb'_append_of_high (by decide) BitVec.extractLsb'_append_eq_left

@[simp] theorem commandWord_a : (commandWord op a b w).extractLsb' 40 8 = a :=
  extractLsb'_append_of_high (by decide) <|
    extractLsb'_append_of_high (by decide) BitVec.extractLsb'_append_eq_right

@[simp] theorem commandWord_b : (commandWord op a b w).extractLsb' 32 8 = b :=
  extractLsb'_append_of_high (by decide) BitVec.extractLsb'_append_eq_right

@[simp] theorem commandWord_w : (commandWord op a b w).extractLsb' 0 32 = w :=
  BitVec.extractLsb'_append_eq_right

/-! ### What the decoder reads in a command word, by its op code (R91, R92) -/

@[simp] theorem decodeCmd_op0 : decodeCmd (commandWord 0x0#4 a b w) = .tick := by simp [decodeCmd]
@[simp] theorem decodeCmd_op1 : decodeCmd (commandWord 0x1#4 a b w) = .readBlock a := by
  simp [decodeCmd]
@[simp] theorem decodeCmd_op2 : decodeCmd (commandWord 0x2#4 a b w) = .readByte a b := by
  simp [decodeCmd]
@[simp] theorem decodeCmd_op3 : decodeCmd (commandWord 0x3#4 a b w) = .readRegisterBit a := by
  simp [decodeCmd]
@[simp] theorem decodeCmd_op4 : decodeCmd (commandWord 0x4#4 a b w) = .readConfigBit a := by
  simp [decodeCmd]
@[simp] theorem decodeCmd_op5 : decodeCmd (commandWord 0x5#4 a b w) = .writeBlock a w := by
  simp [decodeCmd]
@[simp] theorem decodeCmd_op6 : decodeCmd (commandWord 0x6#4 a b w) = .mbxRead b := by
  simp [decodeCmd]
@[simp] theorem decodeCmd_op7 : decodeCmd (commandWord 0x7#4 a b w) = .mbxWrite := by simp [decodeCmd]
@[simp] theorem decodeCmd_op8 : decodeCmd (commandWord 0x8#4 a b w) = .discover := by simp [decodeCmd]
@[simp] theorem decodeCmd_op9 : decodeCmd (commandWord 0x9#4 a b w) = .select := by simp [decodeCmd]
@[simp] theorem decodeCmd_opA : decodeCmd (commandWord 0xA#4 a b w) = .establish := by
  simp [decodeCmd]
@[simp] theorem decodeCmd_opB : decodeCmd (commandWord 0xB#4 a b w) = .dataDirection := by
  simp [decodeCmd]

/-- The four op codes 0b11oo are the reserved ones, told apart by oo. -/
@[simp] theorem decodeCmd_reserved (oo : BitVec 2) :
    decodeCmd (commandWord (0b11#2 ++ oo) a b w) = .reservedOp oo := by
  obtain ⟨⟨n, hn⟩⟩ := oo
  interval_cases n <;> simp [decodeCmd]

end

/-! ### STATE codes (R105) -/

theorem encode_decodeState (c : Cfg) (uid : List Byte) (w : BitVec 3) :
    encode c uid (decodeState w) = .state w := by
  obtain ⟨⟨n, hn⟩⟩ := w
  interval_cases n <;> exact congrArg Code.state (by decide +revert)

@[simp] theorem decodeState_default57 (x : Bool) :
    decodeState (1#1 ++ BitVec.ofBool x ++ 1#1) = .hFatalDefault57 x := by cases x <;> rfl

/-! ### Flags bytes (R95) -/

/-- The byte 0osapihd. -/
def flagsByte (o s a p i h d : Bool) : Byte :=
  BitVec.ofBool false ++ BitVec.ofBool o ++ BitVec.ofBool s ++ BitVec.ofBool a ++
    BitVec.ofBool p ++ BitVec.ofBool i ++ BitVec.ofBool h ++ BitVec.ofBool d

theorem encode_flags (c : Cfg) (uid : List Byte) (o s a p i h d : Bool) :
    encode c uid (.flags o s a p i h d) = .flags (flagsByte o s a p i h d) := rfl

theorem flagsByte_bits (o s a p i h d : Bool) :
    (flagsByte o s a p i h d).getLsbD 7 = false ∧ (flagsByte o s a p i h d).getLsbD 6 = o ∧
    (flagsByte o s a p i h d).getLsbD 5 = s ∧ (flagsByte o s a p i h d).getLsbD 4 = a ∧
    (flagsByte o s a p i h d).getLsbD 3 = p ∧ (flagsByte o s a p i h d).getLsbD 2 = i ∧
    (flagsByte o s a p i h d).getLsbD 1 = h ∧ (flagsByte o s a p i h d).getLsbD 0 = d := by
  revert o s a p i h d
  decide

theorem decodeFlags_flagsByte (o s a p i h d : Bool) :
    decodeFlags (flagsByte o s a p i h d) = .ok (.flags o s a p i h d) := by
  obtain ⟨h7, h6, h5, h4, h3, h2, h1, h0⟩ := flagsByte_bits o s a p i h d
  simp only [decodeFlags, h7, h6, h5, h4, h3, h2, h1, h0]
  rfl

/-- A byte with its RFU bit clear is made of its seven other bits. -/
theorem flagsByte_getLsbD {b : Byte} (hb : b.getLsbD 7 = false) :
    flagsByte (b.getLsbD 6) (b.getLsbD 5) (b.getLsbD 4) (b.getLsbD 3) (b.getLsbD 2) (b.getLsbD 1)
      (b.getLsbD 0) = b := by
  obtain ⟨h7, h6, h5, h4, h3, h2, h1, h0⟩ := flagsByte_bits (b.getLsbD 6) (b.getLsbD 5)
    (b.getLsbD 4) (b.getLsbD 3) (b.getLsbD 2) (b.getLsbD 1) (b.getLsbD 0)
  refine BitVec.eq_of_getLsbD_eq fun k hk => ?_
  interval_cases k
  exacts [h0, h1, h2, h3, h4, h5, h6, h7.trans hb.symm]

theorem encode_of_decodeFlags (c : Cfg) (uid : List Byte) {b : Byte} {i : Instr}
    (h : decodeFlags b = .ok i) : encode c uid i = .flags b := by
  unfold decodeFlags at h
  split at h
  case isTrue => cases h
  case isFalse hb =>
    cases h
    rw [encode_flags, flagsByte_getLsbD (by simpa using hb)]

/-- The flags encoder gives a flags byte's options that byte back (R95, R130). -/
theorem Machine.encodeFlags_flagsOptions (o s a p i h d : Bool) :
    encodeFlags (flagsOptions o s a p i h d) = flagsByte o s a p i h d := by
  cases i <;> rfl

end Sys2Proof
end

section
/-! Transport requests (30_encoding.md R97 to R103): what the model's decoder of frames (log entry 20) answers,
and that a request it reads is the encoding of the frame. -/

namespace Sys2Proof

variable {c : Cfg} {flags cc : Byte} {p : List Byte} {i : Instr}

/-! ### The value and the size byte of a payload (R61, R99, R109) -/

@[simp] theorem valueOfBytes_valueByte (v : BitVec 32) :
    valueOfBytes (valueByte v 0) (valueByte v 1) (valueByte v 2) (valueByte v 3) = v :=
  Machine.blockval_bytesOfValue v

theorem valueByte_valueOfBytes (b0 b1 b2 b3 : Byte) :
    valueByte (valueOfBytes b0 b1 b2 b3) 0 = b0 ∧ valueByte (valueOfBytes b0 b1 b2 b3) 1 = b1 ∧
    valueByte (valueOfBytes b0 b1 b2 b3) 2 = b2 ∧ valueByte (valueOfBytes b0 b1 b2 b3) 3 = b3 :=
  ⟨BitVec.extractLsb'_append_eq_right,
    extractLsb'_append_of_high (by decide) BitVec.extractLsb'_append_eq_right,
    extractLsb'_append_of_high (by decide) <|
      extractLsb'_append_of_high (by decide) BitVec.extractLsb'_append_eq_right,
    extractLsb'_append_of_high (by decide) <|
      extractLsb'_append_of_high (by decide) BitVec.extractLsb'_append_eq_left⟩

theorem sizeByte_toNat {n : Nat} (h : FrameCount n) : (sizeByte n).toNat = n - 1 := by
  obtain ⟨_, _⟩ := h
  simp only [sizeByte, BitVec.toNat_ofNat]
  omega

@[simp] theorem sizeByte_toNat_succ (sz : Byte) : sizeByte (sz.toNat + 1) = sz := by simp [sizeByte]

/-! ### What the decoder reads in a request -/

theorem decodeFrame_select_eq_ok_iff :
    decodeFrame c (.issue flags c.ccSelect p) = .ok i ↔
      flags = Machine.selectFlags c ∧ UidBytes p ∧ i = .tSelect := by
  dsimp only [decodeFrame]
  rw [if_pos rfl]
  split_ifs with hflags huid
  · simp [hflags]
  · exact ⟨fun h => ⟨not_not.mp hflags, huid, (Except.ok.inj h).symm⟩, fun ⟨_, _, hi⟩ => hi ▸ rfl⟩
  · simp [huid]

theorem decodeFrame_tunneled_eq_ok_iff (h : cc ≠ c.ccSelect) :
    decodeFrame c (.issue flags cc p) = .ok i ↔
      flags = Machine.tunnelFlags c ∧ decodeTunneled c cc p = .ok i := by
  dsimp only [decodeFrame]
  rw [if_neg h]
  split
  case h_1 e he => simp [he]
  case h_2 j hj =>
    rw [hj]
    split_ifs with hflags
    · simp [hflags]
    · simp [not_not.mp hflags]

/-- With different codes a frame's code is none of those the decoder tries before it. -/
theorem Cfg.CodesDistinct.ne_earlier (h : c.CodesDistinct) :
    c.ccReadConfig ≠ c.ccSelect ∧
    (c.ccWriteConfig ≠ c.ccSelect ∧ c.ccWriteConfig ≠ c.ccReadConfig) ∧
    (c.ccReadSram ≠ c.ccSelect ∧ c.ccReadSram ≠ c.ccReadConfig ∧ c.ccReadSram ≠ c.ccWriteConfig) ∧
    (c.ccWriteSram ≠ c.ccSelect ∧ c.ccWriteSram ≠ c.ccReadConfig ∧ c.ccWriteSram ≠ c.ccWriteConfig ∧
      c.ccWriteSram ≠ c.ccReadSram) := by
  simp only [CodesDistinct, List.nodup_cons, List.mem_cons, not_or] at h
  obtain ⟨⟨h01, h02, h03, h04, _⟩, ⟨h12, h13, h14, _⟩, ⟨h23, h24, _⟩, ⟨h34, _⟩, _⟩ := h
  exact ⟨Ne.symm h01, ⟨Ne.symm h02, Ne.symm h12⟩, ⟨Ne.symm h03, Ne.symm h13, Ne.symm h23⟩,
    Ne.symm h04, Ne.symm h14, Ne.symm h24, Ne.symm h34⟩

theorem decodeFrame_selectRequest {uid : List Byte} (hu : UidBytes uid) :
    decodeFrame c (selectRequest c uid) = .ok .tSelect :=
  decodeFrame_select_eq_ok_iff.mpr ⟨rfl, hu, rfl⟩

theorem decodeFrame_readConfigRequest (hc : c.CodesDistinct) (a : Byte) :
    decodeFrame c (readConfigRequest c a) = .ok (.tReadConfig a) := by
  obtain ⟨hsel, _⟩ := hc.ne_earlier
  refine (decodeFrame_tunneled_eq_ok_iff hsel).mpr ⟨rfl, ?_⟩
  simp [decodeTunneled]

theorem decodeFrame_writeConfigRequest (hc : c.CodesDistinct) (a : Byte) (v : BitVec 32) :
    decodeFrame c (writeConfigRequest c a v) = .ok (.tWriteConfig a v) := by
  obtain ⟨_, ⟨hsel, hrc⟩, _⟩ := hc.ne_earlier
  refine (decodeFrame_tunneled_eq_ok_iff hsel).mpr ⟨rfl, ?_⟩
  simp [decodeTunneled, hrc]

theorem decodeFrame_readSramRequest (hc : c.CodesDistinct) (a : Byte) {n : Nat} (hn : FrameCount n) :
    decodeFrame c (readSramRequest c a n) = .ok (.tReadSram a n) := by
  obtain ⟨_, _, ⟨hsel, hrc, hwc⟩, _⟩ := hc.ne_earlier
  refine (decodeFrame_tunneled_eq_ok_iff hsel).mpr ⟨rfl, ?_⟩
  have hle : n - 1 ≤ 14 := Nat.sub_le_of_le_add hn.2
  simp [decodeTunneled, hrc, hwc, sizeByte_toNat hn, hle, Nat.sub_add_cancel hn.1]

theorem decodeFrame_writeSramRequest (hc : c.CodesDistinct) (a : Byte) {d : List Byte}
    (hd : WholeBlocks d) : decodeFrame c (writeSramRequest c a d) = .ok (.tWriteSram a d) := by
  obtain ⟨_, _, _, hsel, hrc, hwc, hrs⟩ := hc.ne_earlier
  obtain ⟨hmod, hn⟩ := hd
  refine (decodeFrame_tunneled_eq_ok_iff hsel).mpr ⟨rfl, ?_⟩
  have hle : d.length / 4 - 1 ≤ 14 := Nat.sub_le_of_le_add hn.2
  have hlen : d.length = 4 * (d.length / 4) := by omega
  simp [decodeTunneled, hrc, hwc, hrs, sizeByte_toNat hn, hle, Nat.sub_add_cancel hn.1, ← hlen]

/-! ### A request that decodes is the encoding of its frame -/

theorem encode_of_decodeTunneled (uid : List Byte) (h : decodeTunneled c cc p = .ok i) :
    encode c uid i = .frame (.issue (Machine.tunnelFlags c) cc p) := by
  unfold decodeTunneled at h
  split_ifs at h with hrc hwc hrs hws
  · split at h <;> cases h
    rw [hrc]; rfl
  · split at h <;> cases h
    next a b0 b1 b2 b3 =>
      obtain ⟨h0, h1, h2, h3⟩ := valueByte_valueOfBytes b0 b1 b2 b3
      simp only [encode, writeConfigRequest, h0, h1, h2, h3, hwc]
  · split at h
    next a sz =>
      split_ifs at h
      cases h
      simp only [encode, readSramRequest, sizeByte_toNat_succ, hrs]
    next => cases h
  · split at h
    next a sz d =>
      split_ifs at h with _ hlen
      cases h
      have hblocks : d.length / 4 = sz.toNat + 1 := by omega
      simp only [encode, writeSramRequest, hblocks, sizeByte_toNat_succ, hws]
    next => cases h

/-- The word of a T_SELECT is its encoding for the UID it carries (log entry 12). -/
theorem encode_of_decodeFrame (uid : List Byte) {r : Request} (h : decodeFrame c r = .ok i) :
    encode c uid i = .frame r ∨ ∃ u, i = .tSelect ∧ .frame r = encode c u i := by
  cases r with
  | inventory => cases h; exact .inl rfl
  | issue flags cc p =>
    by_cases hsel : cc = c.ccSelect
    · subst hsel
      obtain ⟨rfl, _, rfl⟩ := decodeFrame_select_eq_ok_iff.mp h
      exact .inr ⟨p, rfl, rfl⟩
    · obtain ⟨rfl, hp⟩ := (decodeFrame_tunneled_eq_ok_iff hsel).mp h
      exact .inl (encode_of_decodeTunneled uid hp)

end Sys2Proof
end

section
/-! The statements about the encodings (30_encoding.md R90 to R108). -/

namespace Sys2Proof

/-- Settles O1: the fields of a command word, the STATE codes, the bits of a flags byte and of an option
vector are read back one by one; a frame is told by its code, which no earlier test of the decoder takes. -/
theorem decodeEncodeRoundTrip : Obligations.DecodeEncodeRoundTrip := by
  intro c uid i hcodes huid hwf
  cases i with
  | tick | readBlock | readByte | readRegisterBit | readConfigBit | writeBlock | mbxRead | mbxWrite
  | discover | select | establish | dataDirection | reservedOp =>
    simp [encode]
  | hInit | hTriggerEnergyHarvest | hWaitI2cToNfc | hWaitNfcToI2c | hFatal | hFatalDefault6 => rfl
  | hFatalDefault57 x => exact congrArg Except.ok (decodeState_default57 x)
  | flags o s a p i h d => exact decodeFlags_flagsByte o s a p i h d
  | encodeFlags opts => simp only [encode, decode_opts_eq_ok_iff, decodeOptions, Options.ofBits_toBits]
  | tReadConfig a => exact decodeFrame_readConfigRequest hcodes a
  | tWriteConfig a v => exact decodeFrame_writeConfigRequest hcodes a v
  | tReadSram a n => exact decodeFrame_readSramRequest hcodes a (of_decide_eq_true hwf)
  | tWriteSram a d => exact decodeFrame_writeSramRequest hcodes a (of_decide_eq_true hwf)
  | tSelect => exact decodeFrame_selectRequest huid
  | tInventory => rfl

/-- Settles O2: off the command port the decoder drops nothing but the UID of a T_SELECT. -/
theorem encodeDecodeOffCommandPort : Obligations.EncodeDecodeOffCommandPort := by
  intro c uid w i hport h
  cases w with
  | cmd w => exact absurd rfl hport
  | state w => cases h; exact .inl (encode_decodeState c uid w)
  | flags b => exact .inl (encode_of_decodeFlags c uid h)
  | opts v =>
    rw [decode_opts_eq_ok_iff] at h
    subst h
    exact .inl (congrArg Code.opts (Options.toBits_ofBits v))
  | frame r => exact encode_of_decodeFrame uid h

/-- Settles O3: one equation of the decoder per op code. -/
theorem commandWordSelectsInstruction : Obligations.CommandWordSelectsInstruction := by
  intro a b w oo
  exact ⟨decodeCmd_op0 a b w, decodeCmd_op1 a b w, decodeCmd_op2 a b w, decodeCmd_op3 a b w,
    decodeCmd_op4 a b w, decodeCmd_op5 a b w, decodeCmd_op6 a b w, decodeCmd_op7 a b w,
    decodeCmd_op8 a b w, decodeCmd_op9 a b w, decodeCmd_opA a b w, decodeCmd_opB a b w,
    decodeCmd_reserved a b w oo⟩

/-- Settles O4: eight closed words, evaluated. -/
theorem specWordsDecode : Obligations.SpecWordsDecode :=
  ⟨rfl, rfl, rfl, rfl, rfl, rfl, rfl, rfl⟩

namespace Machine

/-- Settles O7: the row puts its options on FE_OPTS, whose encoding is the byte they were read from. -/
theorem flagsRowShowsItsByte : Obligations.FlagsRowShowsItsByte := by
  intro o sa a p i h d s
  refine ⟨setFeOpts (flagsOptions o sa a p i h d).toBits s, rfl, rfl, ?_⟩
  have hflags : encodeFlagBits (flagsOptions o sa a p i h d).toBits = flagsByte o sa a p i h d := by
    rw [encodeFlagBits, Options.ofBits_toBits, encodeFlags_flagsOptions]
  exact hflags

/-- Settles O35: the body of the command records InvalidOp, whose code the response then shows. -/
theorem reservedOpRefused : Obligations.ReservedOpRefused := by
  intro s oo hs
  obtain ⟨hrun, hhang⟩ := hs
  dsimp only [exec, execReservedOp]
  rw [command_of_running hrun hhang]
  rfl

end Machine
end Sys2Proof
end

section
/-! The transport frames run alone (30_encoding.md R97 to R103; log entries 11 and 12): one call each, and
what its answer delivers (00_scope.md R11). -/

open Sys2Proof.Claims

namespace Sys2Proof.Machine

variable {s : State}

/-! ### A frame row, from its frame -/

theorem frameRow_of_running {α : Type} (hs : Running s) (f : State → α × State) :
    frameRow f s = .next (f s).2 := by
  obtain ⟨hrun, hhang⟩ := hs
  rw [frameRow, complete_of_noHang hhang, hrun]
  rfl

theorem frameRow_of_stopped {α : Type} (hs : StoppedBlock s) (f : State → α × State) :
    frameRow f s = .next s := by
  obtain ⟨hhalt, hhang⟩ := hs
  rw [frameRow, complete_of_noHang hhang, hhalt]
  rfl

theorem exec_tReadSram_of_frameCount {n : Nat} (hn : FrameCount n) (a : Byte) (s : State) :
    exec (.tReadSram a n) s = frameRow (tReadSram a n) s := if_pos hn

theorem exec_tReadSram_refused {n : Nat} (hn : ¬FrameCount n) (a : Byte) (s : State) :
    exec (.tReadSram a n) s = .refused .malformedFrame := if_neg hn

theorem exec_tWriteSram_of_wholeBlocks {d : List Byte} (hd : WholeBlocks d) (a : Byte) (s : State) :
    exec (.tWriteSram a d) s = frameRow (tWriteSram a d) s := if_pos hd

theorem exec_tWriteSram_refused {d : List Byte} (hd : ¬WholeBlocks d) (a : Byte) (s : State) :
    exec (.tWriteSram a d) s = .refused .malformedFrame := if_neg hd

theorem wholeBlocks_iff (d : List Byte) : WholeBlocks d ↔ ∃ n, FrameCount n ∧ d.length = 4 * n := by
  constructor
  · rintro ⟨hmod, hn⟩
    exact ⟨d.length / 4, hn, by omega⟩
  · rintro ⟨n, hn, hlen⟩
    have hdiv : d.length / 4 = n := by omega
    exact ⟨by omega, hdiv ▸ hn⟩

/-! ### What an answer delivers (R11, R97) -/

theorem readPayload_of_wholeFrame {c : Cfg} {len : Nat} {r : IssueAnswer} {f : List Byte}
    {fs : List (List Byte)} (hr : r = .frames (f :: fs)) (h : WholeFrame c len f) :
    readPayload c.hdrBytes len r = some ((List.range len).map (frameByte c f)) := by
  rw [hr, readPayload_whole h]
  congr 1
  refine List.ext_getElem (by simp; omega) fun k hk hk' => ?_
  have hlt : c.hdrBytes + k < f.length := by simp at hk'; omega
  simp [frameByte, hlt]

theorem readPayload_of_emptyAnswer {c : Cfg} {len : Nat} {r : IssueAnswer}
    (h : EmptyAnswer c len r) : readPayload c.hdrBytes len r = none := by
  obtain rfl | rfl | ⟨f, fs, rfl, hshort⟩ := h
  · rfl
  · rfl
  · exact readPayload_short hshort

theorem writeOk_eq_false_iff (r : IssueAnswer) : writeOk r = false ↔ NoFrame r := by
  rcases r with _ | _ | ⟨f, fs⟩ <;> simp [writeOk, NoFrame]

theorem uidOfAnswer_uid {b : Byte} {bs : List Byte} (h : bs.length ≤ 15) :
    uidOfAnswer (.uid b bs) = some (b :: bs) := by
  rw [uidOfAnswer, List.take_of_length_le h]

/-! ### The rows of a running block -/

theorem exec_tReadConfig (hs : Running s) (a : Byte) :
    exec (.tReadConfig a) s = .next { s with
      env := after s.env [configRead s.cfg a (nextIssue s)] s.env.issues.tail
        (.read (readPayload s.cfg.hdrBytes 4 (nextIssue s))) } :=
  frameRow_of_running hs (tReadConfig a)

theorem exec_tReadSram (hs : Running s) (a : Byte) {n : Nat} (hn : FrameCount n) :
    exec (.tReadSram a n) s = .next { s with
      env := after s.env [sramRead s.cfg a n (nextIssue s)] s.env.issues.tail
        (.read (readPayload s.cfg.hdrBytes (4 * n) (nextIssue s))) } :=
  (exec_tReadSram_of_frameCount hn a s).trans (frameRow_of_running hs (tReadSram a n))

theorem exec_tWriteConfig (hs : Running s) (a : Byte) (v : BitVec 32) :
    exec (.tWriteConfig a v) s = .next { s with
      env := after s.env [configWrite s.cfg a v (nextIssue s)] s.env.issues.tail
        (.wrote (writeOk (nextIssue s))) } :=
  frameRow_of_running hs (tWriteConfig a v)

theorem exec_tWriteSram (hs : Running s) (a : Byte) {d : List Byte} {n : Nat} (hn : FrameCount n)
    (hd : d.length = 4 * n) :
    exec (.tWriteSram a d) s = .next { s with
      env := after s.env [sramWrite s.cfg a n d (nextIssue s)] s.env.issues.tail
        (.wrote (writeOk (nextIssue s))) } := by
  obtain rfl : d.length / 4 = n := by omega
  exact (exec_tWriteSram_of_wholeBlocks ((wholeBlocks_iff d).mpr ⟨_, hn, hd⟩) a s).trans
    (frameRow_of_running hs (tWriteSram a d))

theorem exec_tSelect (hs : Running s) :
    exec .tSelect s = .next { s with
      env := after s.env [selectCall s.cfg s.uid (nextIssue s)] s.env.issues.tail
        (.selected (selectAccepted (nextIssue s))) } :=
  frameRow_of_running hs tSelect

theorem exec_tInventory (hs : Running s) :
    exec .tInventory s = .next (afterInventory (nextInventory s) s) :=
  frameRow_of_running hs tInventory

/-! ### The settled statements -/

/-- Settles O42: each row is its one call, which delivers the bytes behind the header of a first frame that
is long enough, and nothing else. -/
theorem readFramesDeliverPayload : Obligations.ReadFramesDeliverPayload := by
  intro s a n
  refine ⟨rfl, ?config, ?configEmpty, ?sram, ?sramEmpty, ?refused, ?stopped⟩
  case config =>
    intro hs f fs hr hf
    rw [exec_tReadConfig hs, readPayload_of_wholeFrame hr hf]
    rfl
  case configEmpty =>
    intro hs hr
    rw [exec_tReadConfig hs, readPayload_of_emptyAnswer hr]
  case sram =>
    intro hs h1 h15 f fs hr hf
    rw [exec_tReadSram hs a ⟨h1, h15⟩, readPayload_of_wholeFrame hr hf]
  case sramEmpty =>
    intro hs h1 h15 hr
    rw [exec_tReadSram hs a ⟨h1, h15⟩, readPayload_of_emptyAnswer hr]
  case refused => exact fun hn => exec_tReadSram_refused (by omega) a s
  case stopped =>
    refine fun hs => ⟨frameRow_of_stopped hs _, fun h1 h15 => ?_⟩
    rw [exec_tReadSram_of_frameCount ⟨h1, h15⟩, frameRow_of_stopped hs]

/-- Settles O43: each row is its one call, and `writeOk` fails exactly on an answer without a frame. -/
theorem writeFramesTestForAFrame : Obligations.WriteFramesTestForAFrame := by
  intro s a v n d ok hok
  obtain rfl : writeOk (nextIssue s) = ok := by
    rw [Bool.eq_iff_iff, ← not_iff_not, Bool.not_eq_true, Bool.not_eq_true, writeOk_eq_false_iff, hok]
  refine ⟨rfl, fun hs => exec_tWriteConfig hs a v,
    fun hs h1 h15 hd => exec_tWriteSram hs a ⟨h1, h15⟩ hd, ?refused, ?stopped⟩
  case refused =>
    refine fun hd => exec_tWriteSram_refused (fun hwhole => ?_) a s
    obtain ⟨m, ⟨h1, h15⟩, hlen⟩ := (wholeBlocks_iff d).mp hwhole
    exact hd m h1 h15 hlen
  case stopped =>
    refine fun hs => ⟨frameRow_of_stopped hs _, fun h1 h15 hd => ?_⟩
    rw [exec_tWriteSram_of_wholeBlocks ((wholeBlocks_iff d).mpr ⟨n, ⟨h1, h15⟩, hd⟩),
      frameRow_of_stopped hs]

/-- Settles O44: each row is its one call; a select is accepted on `selectOk` alone, and the rest of a UID
that the transport may return has at most the 15 bytes that are read. -/
theorem selectAndInventoryFrames : Obligations.SelectAndInventoryFrames := by
  intro s ok
  refine ⟨?select, ?inventory, fun hs => ⟨frameRow_of_stopped hs _, frameRow_of_stopped hs _⟩⟩
  case select =>
    intro hs hok
    obtain rfl : selectAccepted (nextIssue s) = ok := by
      rw [Bool.eq_iff_iff, selectAccepted_iff, hok]; rfl
    exact exec_tSelect hs
  case inventory =>
    intro hs u hu
    have hfound : uidOfAnswer (nextInventory s) = u := by
      obtain ⟨hr, rfl⟩ | ⟨b, bs, hr, hlen, rfl⟩ := hu
      · rw [hr]; rfl
      · rw [hr, uidOfAnswer_uid hlen]
    rw [exec_tInventory hs, afterInventory, hfound]

end Sys2Proof.Machine
end

section
/-! The command-flag encoder (40_flag_encoder.md R130, R132): FE_FLAGS bit for bit, and the option vectors that
give one byte. -/

namespace Sys2Proof

/-! ### The two options that `inventory` leaves unused (R132) -/

/-- `o` with the two options it leaves unused set to `x` and `y`: address and select when `inventory` is set,
single_slot and afi when it is not. -/
def Options.withUnused (o : Options) (x y : Bool) : Options :=
  if o.inventory then { o with address := x, select := y } else { o with singleSlot := x, afi := y }

theorem Options.withUnused_of_inventory {o : Options} (h : o.inventory = true) (x y : Bool) :
    o.withUnused x y = { o with address := x, select := y } := if_pos h

theorem Options.withUnused_of_not_inventory {o : Options} (h : o.inventory = false) (x y : Bool) :
    o.withUnused x y = { o with singleSlot := x, afi := y } := if_neg (by simp [h])

theorem Options.withUnused_injective (o : Options) :
    Function.Injective fun q : Bool × Bool => o.withUnused q.1 q.2 := by
  rintro ⟨x, y⟩ ⟨x', y'⟩ h
  cases hi : o.inventory with
  | false => simpa [withUnused_of_not_inventory hi, and_comm] using h
  | true => simpa [withUnused_of_inventory hi, and_comm] using h

theorem flagsByte_inj {o s a p i h d o' s' a' p' i' h' d' : Bool} :
    flagsByte o s a p i h d = flagsByte o' s' a' p' i' h' d' ↔
      o = o' ∧ s = s' ∧ a = a' ∧ p = p' ∧ i = i' ∧ h = h' ∧ d = d' := by
  constructor
  · intro heq
    have hdecode := congrArg decodeFlags heq
    simpa only [decodeFlags_flagsByte, Except.ok.injEq, Instr.flags.injEq] using hdecode
  · rintro ⟨rfl, rfl, rfl, rfl, rfl, rfl, rfl⟩
    rfl

namespace Machine

/-! ### The bits of FE_FLAGS (R130) -/

theorem encodeFlags_eq_flagsByte (o : Options) :
    encodeFlags o = flagsByte o.option (if o.inventory then o.singleSlot else o.address)
      (if o.inventory then o.afi else o.select) o.protocolExtension o.inventory o.highDataRate
      o.doubleSubCarrier := rfl

theorem encodeFlags_rfu (o : Options) : (encodeFlags o).getLsbD 7 = false := by
  rw [encodeFlags_eq_flagsByte]
  exact (flagsByte_bits ..).1

theorem feFlags_setFeOpts_toBits (o : Options) (s : State) :
    (setFeOpts o.toBits s).feFlags = encodeFlags o := by
  rw [State.feFlags, setFeOpts_feOpts, encodeFlagBits, Options.ofBits_toBits]

/-! ### The option vectors that give one byte (R132) -/

@[simp] theorem encodeFlags_withUnused (o : Options) (x y : Bool) :
    encodeFlags (o.withUnused x y) = encodeFlags o := by
  cases hi : o.inventory with
  | false => simp [Options.withUnused_of_not_inventory hi, encodeFlags, hi]
  | true => simp [Options.withUnused_of_inventory hi, encodeFlags, hi]

/-- Two option vectors give the same byte exactly when they differ in unused options alone. -/
theorem encodeFlags_eq_iff {o o' : Options} :
    encodeFlags o = encodeFlags o' ↔ ∃ x y, o'.withUnused x y = o := by
  constructor
  · intro heq
    rw [encodeFlags_eq_flagsByte, encodeFlags_eq_flagsByte, flagsByte_inj] at heq
    obtain ⟨hopt, hs, ha, hpe, hinv, hrate, hsub⟩ := heq
    cases hi : o'.inventory with
    | false =>
      refine ⟨o.singleSlot, o.afi, ?_⟩
      rw [Options.withUnused_of_not_inventory hi]
      cases o
      simp_all
    | true =>
      refine ⟨o.address, o.select, ?_⟩
      rw [Options.withUnused_of_inventory hi]
      cases o
      simp_all
  · rintro ⟨x, y, rfl⟩
    exact encodeFlags_withUnused o' x y

/-- The option vectors that give the byte of `o`. -/
def sameFlags (o : Options) : List Options :=
  [(false, false), (false, true), (true, false), (true, true)].map fun q => o.withUnused q.1 q.2

theorem sameFlags_nodup (o : Options) : (sameFlags o).Nodup :=
  List.Nodup.map o.withUnused_injective (by decide)

theorem mem_sameFlags_iff {o o' : Options} : o ∈ sameFlags o' ↔ encodeFlags o = encodeFlags o' := by
  have hall : ∀ q : Bool × Bool, q ∈ [(false, false), (false, true), (true, false), (true, true)] := by
    decide
  simp only [sameFlags, List.mem_map, hall, true_and, Prod.exists, encodeFlags_eq_iff]

theorem exists_encodeFlags_eq {b : Byte} (hb : b.getLsbD 7 = false) : ∃ o, encodeFlags o = b :=
  ⟨_, (encodeFlags_flagsOptions ..).trans (flagsByte_getLsbD hb)⟩

/-! ### The settled statements -/

/-- Settles O6: every byte with bit 7 clear is the byte of some option vector, and the vectors that share its
byte are the four settings of its two unused options. -/
theorem encodeFlagsRange : Obligations.EncodeFlagsRange := by
  refine ⟨fun b => ⟨?outside, ?inside⟩, fun o x y => ⟨?notInventory, ?inventory⟩⟩
  case outside =>
    rintro hb o rfl
    exact Bool.false_ne_true ((encodeFlags_rfu o).symm.trans hb)
  case inside =>
    intro hb
    obtain ⟨o', rfl⟩ := exists_encodeFlags_eq hb
    exact ⟨sameFlags o', sameFlags_nodup o', rfl, fun _ => mem_sameFlags_iff.symm⟩
  case notInventory =>
    intro hi
    rw [← Options.withUnused_of_not_inventory hi, encodeFlags_withUnused]
  case inventory =>
    intro hi
    rw [← Options.withUnused_of_inventory hi, encodeFlags_withUnused]

/-- Settles O5: the options stand on FE_OPTS, and FE_FLAGS shows the flags byte of the bits they choose. -/
theorem encodeFlagsFollowsLayout : Obligations.EncodeFlagsFollowsLayout := by
  intro o s
  refine ⟨setFeOpts o.toBits s, rfl, rfl, ?_⟩
  rw [feFlags_setFeOpts_toBits, encodeFlags_eq_flagsByte]
  exact flagsByte_bits ..

end Machine
end Sys2Proof
end

section
/-! The accessor's commands (41_accessor.md R140 to R144). The four that read are one command,
`blockCommand`: a READ_BLOCK whose answer each of them lays out in its own way. -/

open Sys2Proof.Claims

namespace Sys2Proof.Machine

variable {s : State} {a : Byte}

/-! ### The rules of READ_BLOCK and WRITE_BLOCK (R140, R144) -/

theorem validCfg_eq_false (ha : ¬ValidAddress a) : validCfg a = false := by
  rwa [← Bool.not_eq_true, validCfg_iff]

/-- One T_READ_CONFIG whose call answers r and delivers p (R98). -/
theorem tReadConfig_of_answer {r : IssueAnswer} {p : Option (List Byte)} (hr : nextIssue s = r)
    (hp : readPayload s.cfg.hdrBytes 4 r = p) (a : Byte) :
    tReadConfig a s =
      (p, { s with env := after s.env [configRead s.cfg a r] s.env.issues.tail (.read p) }) := by
  rw [tReadConfig_eq, hr, hp]; rfl

theorem readBlock_invalidAddress (ha : ¬ValidAddress a) (s : State) :
    readBlock a s = (.fail .invalidAddress, record .invalidAddress s) := by
  simp [readBlock, validCfg_eq_false ha]

theorem readBlock_delivered {b : List Byte} (ha : ValidAddress a)
    (hb : (tReadConfig a s).1 = some b) :
    readBlock a s = (.ok b, setBlk (blockval b) (tReadConfig a s).2) := by
  obtain ⟨hbad, _⟩ | ⟨_, hnone, _⟩ | ⟨_, b', hb', _, h⟩ := readBlock_cases a s
  · exact absurd ((validCfg_iff a).mpr ha) (by simp [hbad])
  · exact absurd (hb.symm.trans hnone) (by simp)
  · obtain rfl : b = b' := Option.some.inj (hb.symm.trans hb')
    exact h

theorem readBlock_readError (ha : ValidAddress a) (hnone : (tReadConfig a s).1 = none) :
    readBlock a s = (.fail .readError, record .readError (tReadConfig a s).2) := by
  obtain ⟨hbad, _⟩ | ⟨_, _, h⟩ | ⟨_, b, hb, _⟩ := readBlock_cases a s
  · exact absurd ((validCfg_iff a).mpr ha) (by simp [hbad])
  · exact h
  · exact absurd (hb.symm.trans hnone) (by simp)

theorem writeBlock_invalidAddress (ha : ¬ValidAddress a) (v : BitVec 32) (s : State) :
    writeBlock a v s = (.fail .invalidAddress, record .invalidAddress s) := by
  simp [writeBlock, validCfg_eq_false ha]

theorem writeBlock_writeError (ha : ValidAddress a) (v : BitVec 32)
    (hr : writeOk (nextIssue s) = false) :
    writeBlock a v s = (.ok (), record .writeError (tWriteConfig a v s).2) := by
  obtain ⟨hbad, _⟩ | ⟨_, hok, _⟩ | ⟨_, _, h⟩ := writeBlock_cases a v s
  · exact absurd ((validCfg_iff a).mpr ha) (by simp [hbad])
  · exact absurd (hok.symm.trans hr) (by decide)
  · exact h

/-! ### A command that is one READ_BLOCK -/

/-- The command that reads the block at `a` and answers what `layout` makes of its bytes. -/
def blockCommand (a : Byte) (layout : List Byte → BitVec 32) (s : State) :
    Host.Outcome State Fault Refusal :=
  command (fun s0 => answer layout (readBlock a s0)) s

/-- A command whose body records k and answers data 0 is refused with k (R224). -/
theorem command_refused {body : State → State} (hs : Running s) (k : Kind)
    (hbody : body (setLastErr 0#4 s) = respondErr 0#32 (record k (setLastErr 0#4 s))) :
    command body s = .next (refused k k.code s) := by
  obtain ⟨hrun, hhang⟩ := hs
  rw [command_of_running hrun hhang, hbody]
  rfl

theorem blockCommand_refused (hs : Running s) (ha : ¬ValidAddress a)
    (layout : List Byte → BitVec 32) :
    blockCommand a layout s = .next (refused .invalidAddress 6#4 s) :=
  command_refused hs .invalidAddress (by rw [readBlock_invalidAddress ha]; rfl)

theorem blockCommand_fetched (hs : Running s) (ha : ValidAddress a) {f : List Byte}
    {fs : List (List Byte)} (hr : nextIssue s = .frames (f :: fs)) (hf : WholeFrame s.cfg 4 f)
    (layout : List Byte → BitVec 32) :
    blockCommand a layout s = .next (fetched s a f fs (layout (frameBlock s.cfg f))) := by
  obtain ⟨hrun, hhang⟩ := hs
  have hcall := tReadConfig_of_answer (s := setLastErr 0#4 s) (p := some (frameBlock s.cfg f)) hr
    (readPayload_of_wholeFrame rfl hf) a
  rw [blockCommand, command_of_running hrun hhang,
    readBlock_delivered ha (congrArg Prod.fst hcall), hcall]
  rfl

theorem blockCommand_notFetched (hs : Running s) (ha : ValidAddress a)
    (hr : EmptyAnswer s.cfg 4 (nextIssue s)) (layout : List Byte → BitVec 32) :
    blockCommand a layout s = .next (notFetched s a (nextIssue s)) := by
  obtain ⟨hrun, hhang⟩ := hs
  have hcall := tReadConfig_of_answer (s := setLastErr 0#4 s) (p := none) rfl
    (readPayload_of_emptyAnswer hr) a
  rw [blockCommand, command_of_running hrun hhang,
    readBlock_readError ha (congrArg Prod.fst hcall), hcall]
  rfl

/-! ### The reading commands as that command -/

theorem blockByte_frameBlock (c : Cfg) (f : List Byte) {k : Nat} (hk : k ≤ 3) :
    blockByte (frameBlock c f) k = frameByte c f k := by
  interval_cases k <;> rfl

theorem answer_readByte {k : Nat} (hk : k ≤ 3) (layout : Byte → BitVec 32) (a : Byte) (s : State) :
    answer layout (readByte a k s) =
      answer (fun b => layout (blockByte b k)) (readBlock a s) := by
  obtain ⟨hbad, _⟩ | ⟨_, e, s1, hb, h⟩ | ⟨_, b, s1, hb, h⟩ := readByte_cases a k s
  · omega
  · rw [h, hb]; rfl
  · rw [h, hb]; rfl

theorem answer_readField {off : Nat} (hoff : off ≤ 3) (layout : Byte → BitVec 32) (addr mask : Byte)
    (s : State) :
    answer layout (readField (some (addr, off, mask)) s) =
      answer (fun b => layout (blockByte b off &&& mask)) (readBlock addr s) := by
  rw [← answer_readByte hoff (fun v => layout (v &&& mask))]
  dsimp only [readField]
  rcases readByte addr off s with ⟨v | e, s1⟩ <;> rfl

/-- Only what a body does after LAST_ERR is cleared matters. -/
theorem command_congr {f g : State → State} (h : f (setLastErr 0#4 s) = g (setLastErr 0#4 s)) :
    command f s = command g s := by
  unfold command
  rw [h]

theorem exec_readBlock (a : Byte) (s : State) :
    exec (.readBlock a) s = blockCommand a blockval s := rfl

theorem exec_readByte {k : Byte} (hk : k.toNat ≤ 3) (a : Byte) (s : State) :
    exec (.readByte a k) s = blockCommand a (fun b => (blockByte b k.toNat).zeroExtend 32) s := by
  dsimp only [exec, execReadByte]
  exact command_congr (answer_readByte hk ..)

theorem exec_readByte_invalidOffset {k : Byte} (hs : Running s) (hk : 3 < k.toNat) (a : Byte) :
    exec (.readByte a k) s = .next (refused .invalidOffset 5#4 s) := by
  dsimp only [exec, execReadByte]
  exact command_refused hs .invalidOffset (by simp only [readByte, if_pos hk]; rfl)

/-- The command that reads the field of a table row, if there is one (R142, R143). -/
def fieldCommand (row : Option (Byte × Nat × Byte)) (s : State) : Host.Outcome State Fault Refusal :=
  command (fun s0 => answer (fun v => v.zeroExtend 32) (readField row s0)) s

theorem exec_readRegisterBit (a : Byte) (s : State) :
    exec (.readRegisterBit a) s = fieldCommand (fieldReg s.cfg a) s := by
  dsimp only [exec, execReadRegisterBit]
  exact command_congr rfl

theorem exec_readConfigBit (a : Byte) (s : State) :
    exec (.readConfigBit a) s = fieldCommand (fieldCfg s.cfg a) s := by
  dsimp only [exec, execReadConfigBit]
  exact command_congr rfl

theorem fieldCommand_none (hs : Running s) :
    fieldCommand none s = .next (refused .invalidAddress 6#4 s) :=
  command_refused hs .invalidAddress rfl

theorem fieldCommand_some {row : Byte × Nat × Byte} (hoff : row.2.1 ≤ 3) (s : State) :
    fieldCommand (some row) s =
      blockCommand row.1 (fun b => (blockByte b row.2.1 &&& row.2.2).zeroExtend 32) s :=
  command_congr (by exact answer_readField hoff ..)

theorem fieldCommand_fetched (hs : Running s) {row : Byte × Nat × Byte} (ha : ValidAddress row.1)
    (hoff : row.2.1 ≤ 3) {f : List Byte} {fs : List (List Byte)}
    (hr : nextIssue s = .frames (f :: fs)) (hf : WholeFrame s.cfg 4 f) :
    fieldCommand (some row) s =
      .next (fetched s row.1 f fs ((frameByte s.cfg f row.2.1 &&& row.2.2).zeroExtend 32)) := by
  rw [fieldCommand_some hoff, blockCommand_fetched hs ha hr hf, blockByte_frameBlock _ _ hoff]

theorem fieldCommand_notFetched (hs : Running s) {row : Byte × Nat × Byte} (ha : ValidAddress row.1)
    (hoff : row.2.1 ≤ 3) (hr : EmptyAnswer s.cfg 4 (nextIssue s)) :
    fieldCommand (some row) s = .next (notFetched s row.1 (nextIssue s)) := by
  rw [fieldCommand_some hoff, blockCommand_notFetched hs ha hr]

/-! ### The field tables (10_state.md R40) -/

/-- The register table: identifier, address, offset, mask. -/
def registerRows : List (Byte × Byte × Nat × Byte) :=
  [(0#8, 0xA0#8, 0, 0x20#8), (1#8, 0xA0#8, 1, 0x02#8), (2#8, 0xA0#8, 1, 0x01#8),
    (3#8, 0xA1#8, 1, 0x01#8), (4#8, 0xA1#8, 1, 0x02#8), (5#8, 0xA7#8, 0, 0x80#8),
    (6#8, 0xA7#8, 0, 0x08#8), (7#8, 0xA7#8, 0, 0x01#8), (8#8, 0xA8#8, 0, 0x0F#8)]

theorem fieldReg_of_mem {row : Byte × Byte × Nat × Byte} (h : row ∈ registerRows) (c : Cfg) :
    fieldReg c row.1 = some row.2 := by
  simp only [registerRows, List.mem_cons, List.not_mem_nil, or_false] at h
  obtain rfl | rfl | rfl | rfl | rfl | rfl | rfl | rfl | rfl := h <;> rfl

theorem registerRows_readable :
    ∀ row ∈ registerRows, ValidAddress row.2.1 ∧ row.2.2.1 ≤ 3 := by decide

theorem fieldReg_reserved (ha : 9 ≤ a.toNat) (c : Cfg) : fieldReg c a = none := by
  unfold fieldReg registerField
  split
  case h_10 => rfl
  all_goals omega

theorem fieldCfg_reserved (ha : 1 ≤ a.toNat) (c : Cfg) : fieldCfg c a = none := by
  unfold fieldCfg configField
  split
  · omega
  · rfl

/-! ### The settled statements -/

/-- Settles O8: READ_BLOCK answers the 32-bit view of the block it reads. -/
theorem readBlockFetchesOrFails : Obligations.ReadBlockFetchesOrFails := by
  intro s a hs
  rw [exec_readBlock]
  exact ⟨fun ha => blockCommand_refused hs ha _,
    fun ha f fs hr hf => blockCommand_fetched hs ha hr hf _,
    fun ha hr => blockCommand_notFetched hs ha hr _⟩

/-- Settles O9: an offset above 3 is refused first; with any other, READ_BYTE is a READ_BLOCK that answers
one byte of its block. -/
theorem readByteSlicesOrFails : Obligations.ReadByteSlicesOrFails := by
  intro s a k hs
  refine ⟨fun hk => exec_readByte_invalidOffset hs hk a, ?address, ?empty, ?whole⟩
  case address =>
    intro hk ha
    rw [exec_readByte hk, blockCommand_refused hs ha]
  case empty =>
    intro hk ha hr
    rw [exec_readByte hk, blockCommand_notFetched hs ha hr]
  case whole =>
    intro hk ha f fs hr hf
    rw [exec_readByte hk, blockCommand_fetched hs ha hr hf, blockByte_frameBlock _ _ hk]

/-- Settles O10: every identifier of the table names a readable row; from 9 on there is none. -/
theorem readRegisterBitMasksField : Obligations.ReadRegisterBitMasksField := by
  intro s hs
  refine ⟨fun row hmem => ?row, fun a ha => ?reserved⟩
  case row =>
    obtain ⟨hvalid, hoff⟩ := registerRows_readable row hmem
    rw [exec_readRegisterBit, fieldReg_of_mem hmem s.cfg]
    exact ⟨fun f fs hr hf => fieldCommand_fetched hs hvalid hoff hr hf,
      fun hr => fieldCommand_notFetched hs hvalid hoff hr⟩
  case reserved => rw [exec_readRegisterBit, fieldReg_reserved ha, fieldCommand_none hs]

/-- Settles O11: identifier 0 names the one row of the config table, and no other names any. -/
theorem readConfigBitMasksField : Obligations.ReadConfigBitMasksField := by
  intro s hs
  have hrow : fieldCfg s.cfg 0#8 = some (0x3F#8, 1, s.cfg.sramProtMask) := rfl
  have hvalid : ValidAddress 0x3F#8 := by decide
  have hoff : 1 ≤ 3 := by decide
  refine ⟨fun f fs hr hf => ?whole, fun hr => ?empty, fun a ha => ?reserved⟩
  case whole => rw [exec_readConfigBit, hrow]; exact fieldCommand_fetched hs hvalid hoff hr hf
  case empty => rw [exec_readConfigBit, hrow]; exact fieldCommand_notFetched hs hvalid hoff hr
  case reserved => rw [exec_readConfigBit, fieldCfg_reserved ha, fieldCommand_none hs]

/-- Settles O12: the bytes of the call are `bytesOfValue v`, and the response is status 0 whether or not the
answer holds a frame. -/
theorem writeBlockFiresAndForgets : Obligations.WriteBlockFiresAndForgets := by
  intro s a v hs
  refine ⟨?refused, ?answered, ?unanswered⟩
  case refused =>
    intro ha
    dsimp only [exec, execWriteBlock]
    exact command_refused hs .invalidAddress (by rw [writeBlock_invalidAddress ha])
  case answered =>
    intro ha f fs hr
    have hok : writeOk (nextIssue s) = true := (writeOk_iff _).mpr ⟨f, fs, hr⟩
    rw [exec_writeBlock_answered hs ha hok, ← hr, ← hok]
    rfl
  case unanswered =>
    intro ha hr
    obtain ⟨hrun, hhang⟩ := hs
    have hfail : writeOk (nextIssue (setLastErr 0#4 s)) = false := (writeOk_eq_false_iff _).mpr hr
    dsimp only [exec, execWriteBlock]
    rw [command_of_running hrun hhang, writeBlock_writeError ha v hfail, tWriteConfig_eq, hfail]
    rfl

end Sys2Proof.Machine
end

section
/-! The calls a TICK makes (41_accessor.md R146, 44_arbiter_fsm.md R202), by a relation each operation a
handler is built from satisfies: the configuration stays, and every call added is one a TICK may make. -/

open Sys2Proof.Claims

namespace Sys2Proof.Machine

variable {s t u : State}

/-! ### The relation -/

/-- t comes after s by calls a TICK may make. -/
structure TickCalls (s t : State) : Prop where
  cfg : t.cfg = s.cfg
  calls : ∃ new, t.env.history = s.env.history ++ new ∧ ∀ c ∈ new, TickCall s.cfg c

theorem TickCalls.trans (h : TickCalls s t) (k : TickCalls t u) : TickCalls s u where
  cfg := k.cfg.trans h.cfg
  calls := by
    obtain ⟨cs, hcs, hall⟩ := h.calls
    obtain ⟨ds, hds, kall⟩ := k.calls
    rw [h.cfg] at kall
    exact ⟨cs ++ ds, by rw [hds, hcs, List.append_assoc], List.forall_mem_append.mpr ⟨hall, kall⟩⟩

/-- The state an operation ends in, read off its result. -/
theorem TickCalls.of {α : Type} {x : α × State} {r : α} (k : TickCalls s x.2) (h : x = (r, t)) :
    TickCalls s t := by rw [h] at k; exact k

/-- A change that leaves the configuration and the transport alone makes no call. -/
theorem TickCalls.ofEnv (hcfg : t.cfg = s.cfg) (henv : t.env = s.env) : TickCalls s t :=
  ⟨hcfg, [], by rw [henv, List.append_nil], fun _ h => absurd h List.not_mem_nil⟩

theorem TickCalls.record (h : TickCalls s t) (k : Kind) : TickCalls s (record k t) :=
  h.trans (.ofEnv rfl rfl)

theorem TickCalls.ofCall {c : Call} (hcfg : t.cfg = s.cfg)
    (hcall : t.env.history = s.env.history ++ [c]) (hc : TickCall s.cfg c) : TickCalls s t :=
  ⟨hcfg, [c], hcall, by simpa using hc⟩

/-! ### The frames -/

/-- The blocks of the register table (R40, R146). -/
def tickConfigBlocks : List Byte := [0xA0#8, 0xA1#8, 0xA7#8, 0xA8#8]

variable {a : Byte}

theorem tReadConfig_tickCalls (ha : a ∈ tickConfigBlocks) (s : State) :
    TickCalls s (tReadConfig a s).2 :=
  .ofCall rfl rfl (.inr (.inl ⟨rfl, rfl, List.mem_map_of_mem (f := fun b => [b]) ha⟩))

theorem tReadSram_tickCalls (ha : a.toNat ≤ 0x3F) (n : Nat) (s : State) :
    TickCalls s (tReadSram a n s).2 :=
  .ofCall rfl rfl (.inr (.inr ⟨rfl, .inl rfl, a, _, rfl, ha⟩))

theorem tWriteSram_tickCalls (ha : a.toNat ≤ 0x3F) (d : List Byte) (s : State) :
    TickCalls s (tWriteSram a d s).2 :=
  .ofCall rfl rfl (.inr (.inr ⟨rfl, .inr rfl, a, _, rfl, ha⟩))

theorem tSelect_tickCalls (s : State) : TickCalls s (tSelect s).2 :=
  .ofCall rfl rfl (.inl ⟨rfl, rfl⟩)

theorem tInventory_tickCalls (s : State) : TickCalls s (tInventory s).2 :=
  .ofCall rfl rfl trivial

/-! ### The accessor: a named field stands in one of the four blocks -/

theorem readBlock_tickCalls (ha : a ∈ tickConfigBlocks) (s : State) :
    TickCalls s (readBlock a s).2 := by
  obtain ⟨_, h⟩ | ⟨_, _, h⟩ | ⟨_, b, _, _, h⟩ := readBlock_cases a s <;> rw [h]
  · exact .ofEnv rfl rfl
  · exact (tReadConfig_tickCalls ha s).record _
  · exact (tReadConfig_tickCalls ha s).trans (.ofEnv rfl rfl)

theorem readByte_tickCalls (ha : a ∈ tickConfigBlocks) (k : Nat) (s : State) :
    TickCalls s (readByte a k s).2 := by
  obtain ⟨_, h⟩ | ⟨_, e, s1, hb, h⟩ | ⟨_, b, s1, hb, h⟩ := readByte_cases a k s <;> rw [h]
  · exact .ofEnv rfl rfl
  · exact (readBlock_tickCalls ha s).of hb
  · exact (readBlock_tickCalls ha s).of hb

theorem fieldReg_mem_tickConfigBlocks {c : Cfg} {addr mask : Byte} {off : Nat}
    (h : fieldReg c a = some (addr, off, mask)) : addr ∈ tickConfigBlocks := by
  unfold fieldReg registerField at h
  split at h
  case h_10 => cases h
  all_goals
    obtain ⟨rfl, _⟩ := Prod.mk.inj (Option.some.inj h)
    decide

theorem readNamed_tickCalls (f : Field) (s : State) : TickCalls s (readNamed f s).2 := by
  obtain ⟨_, h⟩ | ⟨addr, off, mask, hrow, ⟨e, s1, hb, h⟩ | ⟨v, s1, hb, h⟩⟩ :=
    readField_cases (fieldReg s.cfg f.id) s <;> rw [readNamed, readRegisterBit, h]
  · exact .ofEnv rfl rfl
  · exact (readByte_tickCalls (fieldReg_mem_tickConfigBlocks hrow) off s).of hb
  · exact (readByte_tickCalls (fieldReg_mem_tickConfigBlocks hrow) off s).of hb

/-! ### The mailbox: SRAM blocks 0x00 to 0x3F -/

theorem scheduleFrom_address_le {total : Nat} (htotal : total ≤ 62) (fuel fetched : Nat) :
    ∀ p ∈ scheduleFrom total fuel fetched, p.1.toNat ≤ 0x3F := by
  induction fuel generalizing fetched with
  | zero => simp [scheduleFrom]
  | succ fuel ih =>
    unfold scheduleFrom
    split
    next hlt =>
      refine List.forall_mem_cons.mpr ⟨?_, ih _⟩
      simp only [BitVec.toNat_ofNat, mbxPayloadFirst]
      omega
    next => simp

/-- The chunk reads of the largest mailbox read end before the terminator block (R161). -/
theorem schedule_address_le {total : Nat} (htotal : total ≤ 62) :
    ∀ p ∈ schedule total, p.1.toNat ≤ 0x3F := scheduleFrom_address_le htotal total 0

theorem readChunks_tickCalls {l : List (Byte × Nat)} (hl : ∀ p ∈ l, p.1.toNat ≤ 0x3F) (s : State) :
    TickCalls s (readChunks l s).2 := by
  induction l generalizing s with
  | nil => exact .ofEnv rfl rfl
  | cons p rest ih =>
    obtain ⟨hp, hrest⟩ := List.forall_mem_cons.mp hl
    have h := (tReadSram_tickCalls hp p.2 s).trans (ih hrest _)
    simp only [readChunks]
    split <;> exact h

theorem mbxRead_tickCalls (tb : Byte) (s : State) : TickCalls s (mbxRead tb s).2 := by
  have hprobe := tReadSram_tickCalls (a := mbxHdrAddr) (by decide) 1 s
  obtain ⟨_, h⟩ | ⟨_, _, h⟩ | ⟨_, p, _, ⟨_, h⟩ | ⟨hn, m, s2, hc, h⟩⟩ := mbxRead_cases tb s <;> rw [h]
  · exact .ofEnv rfl rfl
  · exact hprobe.record _
  · exact hprobe.record _
  · have hchunks := readChunks_tickCalls (schedule_address_le hn) (tReadSram mbxHdrAddr 1 s).2
    exact hprobe.trans ((hchunks.of hc).trans (.ofEnv rfl rfl))

theorem mbxWrite_tickCalls (s : State) : TickCalls s (mbxWrite s).2 := by
  have hwrite (d : List Byte) := tWriteSram_tickCalls (a := mbxHdrAddr) (by decide) d
  have hterm := tWriteSram_tickCalls (a := mbxTermAddr) (by decide) terminator
  obtain ⟨_, h⟩ | ⟨_, _, ok1, s1, h1, ⟨_, h⟩ | ⟨_, ok2, s2, h2, ⟨_, h⟩ | ⟨_, h⟩⟩⟩ :=
    mbxWrite_cases s <;> rw [h]
  · exact .ofEnv rfl rfl
  · exact ((hwrite _ s).of h1).record _
  · exact (((hwrite _ s).of h1).trans ((hterm s1).of h2)).record _
  · exact ((hwrite _ s).of h1).trans ((hterm s1).of h2)

/-! ### The session and the direction -/

theorem discover_tickCalls (s : State) : TickCalls s (discover s).2 := by
  obtain ⟨_, h⟩ | ⟨u, _, _, _, h⟩ := discover_cases s <;> rw [h] <;>
    exact (tInventory_tickCalls s).trans (.ofEnv rfl rfl)

theorem select_tickCalls (s : State) : TickCalls s (select s).2 := by
  obtain ⟨_, h⟩ | ⟨_, _, h⟩ | ⟨_, _, h⟩ := select_cases s <;> rw [h]
  · exact .ofEnv rfl rfl
  · exact (tSelect_tickCalls s).trans (.ofEnv rfl rfl)
  · exact (tSelect_tickCalls s).trans (.ofEnv rfl rfl)

theorem establish_tickCalls (s : State) : TickCalls s (establish s).2 := by
  obtain ⟨k, s1, hd, h⟩ | ⟨s1, hd, h⟩ := establish_cases s <;> rw [h]
  · exact (discover_tickCalls s).of hd
  · exact ((discover_tickCalls s).of hd).trans (select_tickCalls s1)

theorem finishDirection_tickCalls (d : Direction) (s : State) :
    TickCalls s (finishDirection d s).2 := by
  unfold finishDirection
  split <;> exact .ofEnv rfl rfl

theorem dataDirection_tickCalls (s : State) : TickCalls s (dataDirection s).2 := by
  obtain ⟨k, s1, h1, h⟩ | ⟨pt, s1, h1, hrest⟩ := dataDirection_cases s
  · rw [h]; exact (readNamed_tickCalls _ s).of h1
  have e1 := (readNamed_tickCalls _ s).of h1
  obtain ⟨k, s2, h2, h⟩ | ⟨ed, s2, h2, hrest⟩ := hrest
  · rw [h]; exact e1.trans ((readNamed_tickCalls _ s1).of h2)
  have e2 := e1.trans ((readNamed_tickCalls _ s1).of h2)
  have hstatus := readByte_tickCalls (a := 0xA0#8) (by decide) 1 s2
  obtain ⟨_, h⟩ | ⟨_, ⟨k, s3, h3, h⟩ | ⟨v, s3, h3, h⟩⟩ := hrest <;> rw [h]
  · exact e2.trans (finishDirection_tickCalls ..)
  · exact e2.trans (hstatus.of h3)
  · exact e2.trans ((hstatus.of h3).trans (finishDirection_tickCalls ..))

/-! ### The handlers and the tick -/

theorem hInit_tickCalls (now : BitVec 32) (s : State) : TickCalls s (hInit now s).2 := by
  unfold hInit
  have he := establish_tickCalls s
  rcases h : establish s with ⟨_ | k, s1⟩
  · exact (he.of h).trans (.ofEnv rfl rfl)
  · exact he.of h

theorem hTriggerEnergyHarvest_tickCalls (s : State) : TickCalls s (hTriggerEnergyHarvest s).2 := by
  unfold hTriggerEnergyHarvest
  have hr := readNamed_tickCalls .ehLoadOk s
  rcases h : readNamed .ehLoadOk s with ⟨v | k, s1⟩ <;> exact hr.of h

theorem waitReadMailbox_tickCalls (s : State) : TickCalls s (waitReadMailbox s).2 := by
  unfold waitReadMailbox
  have hm := mbxRead_tickCalls 0#8 s
  rcases h : mbxRead 0#8 s with ⟨m | k, s1⟩
  · replace hm := hm.of h
    dsimp only
    split
    · have hr := readNamed_tickCalls .sramDataRdy s1
      rcases h2 : readNamed .sramDataRdy s1 with ⟨v | k, s2⟩ <;> exact hm.trans (hr.of h2)
    · exact hm.record _
  · exact hm.of h

theorem waitPoll_tickCalls (s : State) : TickCalls s (waitPoll s).2 := by
  unfold waitPoll
  have hd := dataDirection_tickCalls s
  rcases h : dataDirection s with ⟨d | k, s1⟩
  · replace hd := hd.of h
    dsimp only
    split
    · have hr := readNamed_tickCalls .sramDataRdy s1
      rcases h2 : readNamed .sramDataRdy s1 with ⟨v | k, s2⟩
      · dsimp only
        split
        · exact (hd.trans (hr.of h2)).trans (waitReadMailbox_tickCalls s2)
        · exact hd.trans (hr.of h2)
      · exact hd.trans (hr.of h2)
    · exact hd
  · exact hd.of h

theorem hWaitNfcToI2c_tickCalls (s : State) : TickCalls s (hWaitNfcToI2c s).2 := by
  unfold hWaitNfcToI2c
  have hd := dataDirection_tickCalls s
  rcases h : dataDirection s with ⟨d | k, s1⟩
  · replace hd := hd.of h
    dsimp only
    split
    · have hw := mbxWrite_tickCalls s1
      rcases h2 : mbxWrite s1 with ⟨_ | k, s2⟩ <;> exact hd.trans (hw.of h2)
    · exact hd
  · exact hd.of h

theorem takeHalt_tickCalls (k : Kind) (s : State) : TickCalls s (takeHalt k s) :=
  .ofEnv (takeHalt_steady k s).cfg (takeHalt_env k s)

theorem runHandler_tickCalls (h : Handler) (now : BitVec 32) (s : State) :
    TickCalls s (runHandler h now s).2 := by
  cases h with
  | init => exact hInit_tickCalls now s
  | triggerEnergyHarvest => exact hTriggerEnergyHarvest_tickCalls s
  | waitI2cToNfc =>
    dsimp only [runHandler, hWaitI2cToNfc]
    split
    · exact takeHalt_tickCalls .timeout s
    · exact waitPoll_tickCalls s
  | waitNfcToI2c => exact hWaitNfcToI2c_tickCalls s
  | fatal => exact takeHalt_tickCalls .fatal s

theorem reloadWatchdog_tickCalls (cur next : BitVec 3) (now : BitVec 32) (s : State) :
    TickCalls s (reloadWatchdog cur next now s) := by
  unfold reloadWatchdog
  split <;> exact .ofEnv rfl rfl

theorem tickBody_tickCalls (h : Handler) (s : State) : TickCalls s (tickBody h s) := by
  unfold tickBody
  have hr := runHandler_tickCalls h s.inp.now s
  rcases hx : runHandler h s.inp.now s with ⟨next, s1⟩
  exact (hr.of hx).trans ((reloadWatchdog_tickCalls ..).trans (.ofEnv rfl rfl))

/-- Settles O39: a halted block makes no call, and a running one those of its handler. -/
theorem tickCallsNamedAddressesOnly : Obligations.TickCallsNamedAddressesOnly := by
  intro s t h
  obtain ⟨_, rfl⟩ | ⟨_, rfl⟩ := command_next h
  · exact (TickCalls.ofEnv (t := answerHalted s) rfl rfl).calls
  · exact (tickBody_tickCalls _ (setLastErr 0#4 s)).calls

end Sys2Proof.Machine
end

section
/-! The chunk schedule in closed form (42_mailbox_channel.md R161): the loop makes the windows of 15 blocks in
order, and what is said of its entries is read off window by window. -/

namespace Sys2Proof.Machine

/-- Window i of a read of `total` blocks: its first block and its count (R161). -/
def chunkWindow (total i : Nat) : Byte × Nat :=
  (BitVec.ofNat 8 (0x01 + 15 * i), min 15 (total - 15 * i))

theorem scheduleFrom_of_le {total fetched : Nat} (h : total ≤ fetched) (fuel : Nat) :
    scheduleFrom total fuel fetched = [] := by
  cases fuel with
  | zero => rfl
  | succ fuel => exact if_neg (Nat.not_lt.mpr h)

theorem scheduleFrom_of_lt {total fetched : Nat} (h : fetched < total) (fuel : Nat) :
    scheduleFrom total (fuel + 1) fetched =
      (BitVec.ofNat 8 (0x01 + fetched), min 15 (total - fetched)) ::
        scheduleFrom total fuel (fetched + min 15 (total - fetched)) := if_pos h

/-- The loop once k windows are fetched. A window that is not full is the last. -/
theorem scheduleFrom_eq_windows {total fuel k : Nat} (hfuel : total ≤ 15 * k + fuel) :
    scheduleFrom total fuel (15 * k) =
      (List.range' k ((total - 15 * k + 14) / 15)).map (chunkWindow total) := by
  induction fuel generalizing k with
  | zero =>
    have hnone : (total - 15 * k + 14) / 15 = 0 := by omega
    have hdone : total ≤ 15 * k := hfuel
    simp [scheduleFrom_of_le hdone, hnone]
  | succ fuel ih =>
    obtain hdone | hlast | hfull :
        total ≤ 15 * k ∨ (15 * k < total ∧ total < 15 * (k + 1)) ∨ 15 * (k + 1) ≤ total := by omega
    · have hnone : (total - 15 * k + 14) / 15 = 0 := by omega
      simp [scheduleFrom_of_le hdone, hnone]
    · have hone : (total - 15 * k + 14) / 15 = 1 := by omega
      rw [scheduleFrom_of_lt hlast.1, scheduleFrom_of_le (by omega), hone]
      rfl
    · have hmore : (total - 15 * k + 14) / 15 = (total - 15 * (k + 1) + 14) / 15 + 1 := by omega
      have hnext : 15 * k + min 15 (total - 15 * k) = 15 * (k + 1) := by omega
      rw [scheduleFrom_of_lt (by omega), hnext, ih (by omega), hmore]
      rfl

theorem schedule_eq_windows (n : Nat) :
    schedule n = (List.range ((n + 14) / 15)).map (chunkWindow n) := by
  rw [List.range_eq_range']
  exact scheduleFrom_eq_windows (k := 0) (Nat.le_add_left n (15 * 0))

/-- The first k windows hold 15 blocks each, as long as there are that many. -/
theorem chunkWindow_sum (total k : Nat) :
    (((List.range k).map (chunkWindow total)).map Prod.snd).sum = min (15 * k) total := by
  induction k with
  | zero => simp
  | succ k ih =>
    rw [List.range_succ, List.map_append, List.map_append, List.sum_append, ih]
    simp only [chunkWindow, List.map_cons, List.map_nil, List.sum_singleton]
    omega

/-- The chunks of a mailbox read fetch exactly the blocks asked for. -/
theorem schedule_sum (n : Nat) : ((schedule n).map Prod.snd).sum = n := by
  rw [schedule_eq_windows, chunkWindow_sum]
  omega

/-- A window of at most 62 blocks starts at an address that fits in a byte, and ends by block n. -/
theorem chunkWindow_bounds {n i : Nat} (hn : n ≤ 62) (hi : i < (n + 14) / 15) :
    let p := chunkWindow n i
    1 ≤ p.2 ∧ p.2 ≤ 15 ∧ 0x01 ≤ p.1.toNat ∧ p.1.toNat + p.2 ≤ n + 1 := by
  simp only [chunkWindow, BitVec.toNat_ofNat]
  omega

theorem chunkWindow_full {n i : Nat} (hi : i < (n + 14) / 15 - 1) : (chunkWindow n i).2 = 15 := by
  simp only [chunkWindow]
  omega

theorem schedule_dropLast (n : Nat) :
    (schedule n).dropLast = (List.range ((n + 14) / 15 - 1)).map (chunkWindow n) := by
  rw [schedule_eq_windows, ← List.map_dropLast, List.dropLast_eq_take, List.take_range,
    List.length_range, min_eq_left (Nat.sub_le ..)]

/-- Settles O14: the windows are the closed form; their bounds hold window by window. -/
theorem schedulePartitionsPayload : Obligations.SchedulePartitionsPayload := by
  refine ⟨schedule_eq_windows, fun n hn => ⟨?length, schedule_sum n, ?bounds, ?full⟩⟩
  case length => rw [schedule_eq_windows, List.length_map, List.length_range]
  case bounds =>
    rw [schedule_eq_windows]
    exact List.forall_mem_map.mpr fun i hi => chunkWindow_bounds hn (List.mem_range.mp hi)
  case full =>
    rw [schedule_dropLast]
    exact List.forall_mem_map.mpr fun i hi => chunkWindow_full (List.mem_range.mp hi)

end Sys2Proof.Machine
end

section
/-! MBX_READ (42_mailbox_channel.md R162): one equation per branch of the operation, and the chunk reads as
functions of the answers lined up for them. -/

open Sys2Proof.Claims

namespace Sys2Proof.Machine

variable {s s1 : State} {tb : Byte} {r : IssueAnswer} {d : Option (List Byte)}

/-! ### The branches of the operation -/

theorem mailboxBlocks_eq_mailboxCount (tb l : Byte) : mailboxBlocks tb l = mailboxCount tb l := by
  unfold mailboxBlocks mailboxCount blocksOfLen
  exact ite_not ..

theorem mbxRead_invalidAddress (htb : 62 < tb.toNat) (s : State) :
    mbxRead tb s = (.fail .invalidAddress, record .invalidAddress s) := if_pos htb

theorem mbxRead_headerReadError (htb : tb.toNat ≤ 62)
    (hprobe : tReadSram mbxHdrAddr 1 s = (none, s1)) :
    mbxRead tb s = (.fail .headerReadError, record .headerReadError s1) := by
  have hoperand : ¬mbxPayloadMaxBlocks < tb.toNat := Nat.not_lt.mpr htb
  simp only [mbxRead, if_neg hoperand, hprobe]

theorem mbxRead_readError {p : List Byte} (htb : tb.toNat ≤ 62)
    (hprobe : tReadSram mbxHdrAddr 1 s = (some p, s1)) (hn : 62 < mailboxCount tb (blockByte p 0)) :
    mbxRead tb s = (.fail .readError, record .readError s1) := by
  have hoperand : ¬mbxPayloadMaxBlocks < tb.toNat := Nat.not_lt.mpr htb
  have hcount : mbxPayloadMaxBlocks < mailboxCount tb (blockByte p 0) := hn
  simp only [mbxRead, if_neg hoperand, hprobe, mailboxBlocks_eq_mailboxCount, if_pos hcount]

theorem mbxRead_ok {p : List Byte} {m : MailboxPayload} {s2 : State} (htb : tb.toNat ≤ 62)
    (hprobe : tReadSram mbxHdrAddr 1 s = (some p, s1)) (hn : mailboxCount tb (blockByte p 0) ≤ 62)
    (hchunks : readChunks (schedule (mailboxCount tb (blockByte p 0))) s1 = (m, s2)) :
    mbxRead tb s = (.ok m, setRx (blockByte p 0) m.bytes m.complete s2) := by
  have hoperand : ¬mbxPayloadMaxBlocks < tb.toNat := Nat.not_lt.mpr htb
  have hcount : ¬mbxPayloadMaxBlocks < mailboxCount tb (blockByte p 0) := Nat.not_lt.mpr hn
  simp only [mbxRead, if_neg hoperand, hprobe, mailboxBlocks_eq_mailboxCount, if_neg hcount, hchunks]

/-! ### One SRAM read, from its answer -/

/-- s after the calls `cs`, with the answers `rest` left and `v` delivered last. -/
def State.afterCalls (s : State) (cs : List Call) (rest : List IssueAnswer) (v : FrameValue) : State :=
  { s with env := after s.env cs rest v }

@[simp] theorem State.afterCalls_afterCalls (s : State) (cs ds : List Call)
    (rest rest' : List IssueAnswer) (v v' : FrameValue) :
    (s.afterCalls cs rest v).afterCalls ds rest' v' = s.afterCalls (cs ++ ds) rest' v' := by
  simp [State.afterCalls, after]

@[simp] theorem State.afterCalls_value (s : State) (cs : List Call) (rest : List IssueAnswer)
    (v : FrameValue) : (s.afterCalls cs rest v).env.value = v := rfl

theorem State.afterCalls_nil (s : State) : s.afterCalls [] s.env.issues s.env.value = s := by
  simp [State.afterCalls, after]

/-- One T_READ_SRAM whose call answers r and delivers d (R100). -/
theorem tReadSram_of_answer {n : Nat} (hr : nextIssue s = r)
    (hd : readPayload s.cfg.hdrBytes (4 * n) r = d) (a : Byte) :
    tReadSram a n s = (d, s.afterCalls [sramRead s.cfg a n r] s.env.issues.tail (.read d)) := by
  rw [tReadSram_eq, hr, hd]; rfl

/-! ### The chunk reads, from their answers -/

/-- A chunk of the schedule with the answer to its read: address, count and answer. -/
abbrev AnsweredChunk := (Byte × Nat) × IssueAnswer

def AnsweredChunk.data (c : Cfg) (p : AnsweredChunk) : Option (List Byte) :=
  readPayload c.hdrBytes (4 * p.1.2) p.2

def AnsweredChunk.call (c : Cfg) (p : AnsweredChunk) : Call := sramRead c p.1.1 p.1.2 p.2

/-- What a mailbox read makes of its chunks (R162). -/
def payloadOfChunks (ds : List (Option (List Byte))) : MailboxPayload :=
  ⟨(ds.map fun d => d.getD []).flatten, ds.all Option.isSome⟩

/-- What the last frame delivered, once reads have delivered `ds`. -/
def lastRead (v : FrameValue) (ds : List (Option (List Byte))) : FrameValue :=
  (ds.getLast?.map FrameValue.read).getD v

theorem lastRead_cons (v : FrameValue) (d : Option (List Byte)) (ds : List (Option (List Byte))) :
    lastRead v (d :: ds) = lastRead (.read d) ds := by
  cases h : ds.getLast? <;> simp [lastRead, List.getLast?_cons, h]

theorem lastRead_read (d : Option (List Byte)) (ds : List (Option (List Byte))) :
    lastRead (.read d) ds = .read (ds.getLast?.getD d) := by
  cases h : ds.getLast? <;> simp [lastRead, h]

theorem readChunks_cons {a : Byte} {n : Nat} (h : tReadSram a n s = (d, s1)) (l : List (Byte × Nat)) :
    readChunks ((a, n) :: l) s =
      (⟨d.getD [] ++ (readChunks l s1).1.bytes, d.isSome && (readChunks l s1).1.complete⟩,
        (readChunks l s1).2) := by
  cases d <;> simp [readChunks, h]

/-- With an answer lined up for every chunk, the reads make one call each, whether it delivers or not. -/
theorem readChunks_answered (ps : List AnsweredChunk) (rest : List IssueAnswer) (s : State)
    (h : s.env.issues = ps.map Prod.snd ++ rest) :
    readChunks (ps.map Prod.fst) s =
      (payloadOfChunks (ps.map (AnsweredChunk.data s.cfg)),
        s.afterCalls (ps.map (AnsweredChunk.call s.cfg)) rest
          (lastRead s.env.value (ps.map (AnsweredChunk.data s.cfg)))) := by
  induction ps generalizing s with
  | nil =>
    obtain rfl : s.env.issues = rest := h
    exact congrArg (Prod.mk _) s.afterCalls_nil.symm
  | cons p ps ih =>
    obtain ⟨⟨a, n⟩, r⟩ := p
    have hread := tReadSram_of_answer (n := n) (nextIssue_of_issues h) rfl a
    have hrest := ih (s.afterCalls [sramRead s.cfg a n r] s.env.issues.tail
      (.read (readPayload s.cfg.hdrBytes (4 * n) r))) (congrArg List.tail h)
    simp only [List.map_cons]
    rw [readChunks_cons hread, hrest, State.afterCalls_afterCalls, lastRead_cons]
    rfl

/-- The chunk reads of a whole schedule, in the terms of the claims (R162). -/
theorem readChunks_schedule {n : Nat} {chunks rest : List IssueAnswer}
    (hissues : s.env.issues = chunks ++ rest) (hlen : chunks.length = (schedule n).length) :
    readChunks (schedule n) s =
      (⟨chunkPayload s.cfg n chunks, chunksWhole s.cfg n chunks⟩,
        s.afterCalls (chunkCalls s.cfg n chunks) rest
          (lastRead s.env.value (chunkData s.cfg n chunks))) := by
  have hfst : ((schedule n).zip chunks).map Prod.fst = schedule n := List.map_fst_zip hlen.ge
  have hsnd : ((schedule n).zip chunks).map Prod.snd = chunks := List.map_snd_zip hlen.le
  have h := readChunks_answered ((schedule n).zip chunks) rest s (by rw [hsnd, hissues])
  rw [hfst] at h
  exact h

/-- A read of at most 62 blocks fits in RXBUF (R165). -/
theorem readChunks_schedule_length_le {n : Nat} (hn : n ≤ 62) (s : State) :
    (readChunks (schedule n) s).1.bytes.length ≤ 248 := by
  obtain ⟨_, hle⟩ := readChunks_length (schedule n) s
  rw [schedule_sum] at hle
  omega

/-- Chunks that all came back whole hold every block of the schedule. -/
theorem readChunks_length_of_complete {l : List (Byte × Nat)} (h : (readChunks l s).1.complete = true) :
    (readChunks l s).1.bytes.length = 4 * (l.map Prod.snd).sum := by
  induction l generalizing s with
  | nil => rfl
  | cons p rest ih =>
    obtain ⟨a, n⟩ := p
    rcases hread : tReadSram a n s with ⟨d, s1⟩
    rw [readChunks_cons hread] at h ⊢
    obtain ⟨hd, hrest⟩ := Bool.and_eq_true_iff.mp h
    obtain ⟨b, rfl⟩ := Option.isSome_iff_exists.mp hd
    have hb : b.length = 4 * n := readPayload_length (congrArg Prod.fst hread)
    simp only [List.map_cons, List.sum_cons, Option.getD_some, List.length_append, ih hrest, hb]
    omega

/-! ### The command -/

@[simp] theorem Kind.code_ne_zero (k : Kind) : k.code ≠ 0#4 := by cases k <;> decide

theorem readPayload_frameBlock {c : Cfg} {f : List Byte} (hf : WholeFrame c 4 f) (fs : List (List Byte)) :
    readPayload c.hdrBytes 4 (.frames (f :: fs)) = some (frameBlock c f) :=
  readPayload_of_wholeFrame rfl hf

/-- The state of a command that has made the probe read and no other call yet. -/
def probed (r : IssueAnswer) (d : Option (List Byte)) (s : State) : State :=
  (setLastErr 0#4 s).afterCalls [sramRead s.cfg 0x00#8 1 r] s.env.issues.tail (.read d)

theorem tReadSram_probe (hr : nextIssue s = r) (hd : readPayload s.cfg.hdrBytes 4 r = d) :
    tReadSram mbxHdrAddr 1 (setLastErr 0#4 s) = (d, probed r d s) :=
  tReadSram_of_answer (s := setLastErr 0#4 s) (n := 1) hr hd mbxHdrAddr

/-- The chunk reads behind a probe that answered r, in the terms of the claims (R162). -/
theorem readChunks_probed {n : Nat} {chunks rest : List IssueAnswer}
    (hissues : s.env.issues = r :: (chunks ++ rest)) (hlen : chunks.length = (schedule n).length)
    (d : Option (List Byte)) :
    readChunks (schedule n) (probed r d s) =
      (⟨chunkPayload s.cfg n chunks, chunksWhole s.cfg n chunks⟩,
        (setLastErr 0#4 s).afterCalls (sramRead s.cfg 0x00#8 1 r :: chunkCalls s.cfg n chunks) rest
          (.read ((chunkData s.cfg n chunks).getLast?.getD d))) := by
  have hissues' : (probed r d s).env.issues = chunks ++ rest := congrArg List.tail hissues
  rw [readChunks_schedule hissues' hlen, probed, State.afterCalls_value, lastRead_read,
    State.afterCalls_afterCalls]
  rfl

theorem exec_mbxRead_of_fail {k : Kind} {t : State} (hs : Running s)
    (h : mbxRead tb (setLastErr 0#4 s) = (.fail k, t)) :
    exec (.mbxRead tb) s = .next (respondErr 0#32 t) := by
  obtain ⟨hrun, hhang⟩ := hs
  dsimp only [exec, execMbxRead]
  rw [command_of_running hrun hhang, h]

theorem exec_mbxRead_of_ok {m : MailboxPayload} {t : State} (hs : Running s)
    (h : mbxRead tb (setLastErr 0#4 s) = (.ok m, t)) :
    exec (.mbxRead tb) s =
      .next (respondErr (mbxData t.regs.rxLen t.regs.rxComplete t.regs.rxHdr) t) := by
  obtain ⟨hrun, hhang⟩ := hs
  dsimp only [exec, execMbxRead]
  rw [command_of_running hrun hhang, h]

/-! ### The settled statements -/

/-- Settles O15: the probe delivers the header, the chunk reads take the answers behind it one by one, and
RXBUF is the payload laid over free bytes. -/
theorem mbxReadAssemblesChunks : Obligations.MbxReadAssemblesChunks := by
  intro s tb f fs chunks rest hs htb hissues hf hn hlen n payload whole
  have hprobe := tReadSram_probe (nextIssue_of_issues hissues) (readPayload_frameBlock hf fs)
  have hchunks := readChunks_probed hissues hlen (some (frameBlock s.cfg f))
  have hfits : payload.length ≤ 248 := by
    have hle := readChunks_schedule_length_le hn
      (probed (.frames (f :: fs)) (some (frameBlock s.cfg f)) s)
    rwa [hchunks] at hle
  refine ⟨_, ?buffer, exec_mbxRead_of_ok hs (mbxRead_ok htb hprobe hn hchunks)⟩
  case buffer => exact overlay_take payload _ hfits

/-- Settles O16: the failures record a kind, whose code is not 0; a read that came back complete delivers
the whole schedule, whose counts sum to N. -/
theorem completeMailboxReadIsWholeBlocks : Obligations.CompleteMailboxReadIsWholeBlocks := by
  intro s t tb hs h herr hcomplete
  obtain ⟨_, hbad⟩ | ⟨_, _, hbad⟩ | ⟨_, p, _, ⟨_, hbad⟩ | ⟨hn, m, s2, hchunks, hok⟩⟩ :=
    mbxRead_cases tb (setLastErr 0#4 s)
  case inr.inr.inr =>
    rw [exec_mbxRead_of_ok hs hok] at h
    obtain rfl := Host.Outcome.next.inj h
    have hlen := readChunks_length_of_complete ((congrArg (·.1.complete) hchunks).trans hcomplete)
    rw [hchunks, schedule_sum, mailboxBlocks_eq_mailboxCount] at hlen
    rw [mailboxBlocks_eq_mailboxCount] at hn
    dsimp only at hlen
    refine ⟨?_, hn⟩
    simp only [respondErr_regs, setRx_regs, BitVec.toNat_ofNat]
    omega
  all_goals
    rw [exec_mbxRead_of_fail hs hbad] at h
    obtain rfl := Host.Outcome.next.inj h
    simp at herr

/-- Settles O17: each failure is a branch of the operation, and only the last two make the probe call. -/
theorem mbxReadFailuresKeepRx : Obligations.MbxReadFailuresKeepRx := by
  intro s tb hs
  refine ⟨fun htb => ?operand, fun htb hr => ?probe, fun f fs htb hr hf hl => ?header⟩
  case operand =>
    rw [exec_mbxRead_of_fail hs (mbxRead_invalidAddress htb _)]
    rfl
  case probe =>
    have hprobe := tReadSram_probe rfl (readPayload_of_emptyAnswer hr)
    rw [exec_mbxRead_of_fail hs (mbxRead_headerReadError htb hprobe)]
    rfl
  case header =>
    subst htb
    have hprobe := tReadSram_probe hr (readPayload_frameBlock hf fs)
    have hn : 62 < mailboxCount 0#8 (frameByte s.cfg f 0) := by
      simp only [mailboxCount, if_true]; omega
    rw [exec_mbxRead_of_fail hs (mbxRead_readError (by decide) hprobe hn)]
    rfl

end Sys2Proof.Machine
end

section
/-! MBX_WRITE (42_mailbox_channel.md R164): one equation per branch of the operation, and its two writes as
functions of the answers lined up for them. -/

open Sys2Proof.Claims

namespace Sys2Proof.Machine

variable {s s1 s2 : State} {r : IssueAnswer} {rest : List IssueAnswer} {ok : Bool}

/-! ### The branches of the operation -/

/-- The outbound payload: the first TX_NBLK blocks of TX_DATA (R29). -/
def Inputs.payload (i : Inputs) : List Byte := i.txData.toList.take (4 * i.txNblk.toNat)

theorem Inputs.payload_length {i : Inputs} (h : i.txNblk.toNat ≤ 15) :
    i.payload.length = 4 * i.txNblk.toNat := by
  simp only [Inputs.payload, List.length_take, Vector.length_toList]
  omega

theorem mbxWrite_invalidLength (h : s.inp.txNblk.toNat = 0 ∨ 15 < s.inp.txNblk.toNat) :
    mbxWrite s = (.fail .invalidLength, record .invalidLength s) := if_pos h

theorem frameCount_not_refused {n : Nat} (h : FrameCount n) : ¬(n = 0 ∨ txMaxBlocks < n) := by
  obtain ⟨hpos, hle⟩ := h
  simp only [txMaxBlocks]
  omega

theorem mbxWrite_payloadFailed (hpayload : tWriteSram mbxHdrAddr s.inp.payload s = (false, s1))
    (hn : FrameCount s.inp.txNblk.toNat) :
    mbxWrite s = (.fail .writeError, record .writeError s1) := by
  rw [Inputs.payload] at hpayload
  simp only [mbxWrite, if_neg (frameCount_not_refused hn), hpayload]

theorem mbxWrite_terminatorFailed (hpayload : tWriteSram mbxHdrAddr s.inp.payload s = (true, s1))
    (hterm : tWriteSram mbxTermAddr terminator s1 = (false, s2)) (hn : FrameCount s.inp.txNblk.toNat) :
    mbxWrite s = (.fail .writeError, record .writeError s2) := by
  rw [Inputs.payload] at hpayload
  simp only [mbxWrite, if_neg (frameCount_not_refused hn), hpayload, hterm]

theorem mbxWrite_ok (hpayload : tWriteSram mbxHdrAddr s.inp.payload s = (true, s1))
    (hterm : tWriteSram mbxTermAddr terminator s1 = (true, s2)) (hn : FrameCount s.inp.txNblk.toNat) :
    mbxWrite s = (.ok (), s2) := by
  rw [Inputs.payload] at hpayload
  simp only [mbxWrite, if_neg (frameCount_not_refused hn), hpayload, hterm]

/-! ### The two writes, from their answers -/

/-- One T_WRITE_SRAM of n blocks whose call is answered by the first answer lined up (R101). -/
theorem tWriteSram_of_issues {n : Nat} {d : List Byte} (hissues : s.env.issues = r :: rest)
    (hok : writeOk r = ok) (hd : d.length = 4 * n) (a : Byte) :
    tWriteSram a d s = (ok, s.afterCalls [sramWrite s.cfg a n d r] rest (.wrote ok)) := by
  have hblocks : d.length / 4 = n := by omega
  obtain rfl : s.env.issues.tail = rest := congrArg List.tail hissues
  rw [tWriteSram_eq, nextIssue_of_issues hissues, hblocks, hok]
  rfl

/-- The state of a command that has made the payload write and no other call yet. -/
def payloadSent (r : IssueAnswer) (ok : Bool) (rest : List IssueAnswer) (s : State) : State :=
  (setLastErr 0#4 s).afterCalls [sramWrite s.cfg 0x00#8 s.inp.txNblk.toNat s.inp.payload r] rest
    (.wrote ok)

/-- The state of a command that has made both writes. -/
def terminatorSent (r1 r2 : IssueAnswer) (ok : Bool) (rest : List IssueAnswer) (s : State) : State :=
  (setLastErr 0#4 s).afterCalls
    [sramWrite s.cfg 0x00#8 s.inp.txNblk.toNat s.inp.payload r1, sramWrite s.cfg 0x3F#8 1 terminator r2]
    rest (.wrote ok)

theorem tWriteSram_payload (hissues : s.env.issues = r :: rest) (hok : writeOk r = ok)
    (hn : FrameCount s.inp.txNblk.toNat) :
    tWriteSram mbxHdrAddr (setLastErr 0#4 s).inp.payload (setLastErr 0#4 s) =
      (ok, payloadSent r ok rest s) :=
  tWriteSram_of_issues (s := setLastErr 0#4 s) hissues hok (Inputs.payload_length hn.2) mbxHdrAddr

theorem tWriteSram_terminator {r2 : IssueAnswer} (hok : writeOk r2 = ok) (r1 : IssueAnswer) (ok1 : Bool)
    (rest : List IssueAnswer) (s : State) :
    tWriteSram mbxTermAddr terminator (payloadSent r1 ok1 (r2 :: rest) s) =
      (ok, terminatorSent r1 r2 ok rest s) := by
  rw [tWriteSram_of_issues (n := 1) rfl hok rfl, payloadSent, State.afterCalls_afterCalls]
  rfl

/-! ### The command -/

theorem exec_mbxWrite (hs : Running s) :
    exec .mbxWrite s = .next (answer (fun _ => 0#32) (mbxWrite (setLastErr 0#4 s))) := by
  obtain ⟨hrun, hhang⟩ := hs
  dsimp only [exec, execMbxWrite]
  rw [command_of_running hrun hhang]

/-- Settles O18: each clause is a branch of the operation; the terminator write is reached only behind a
payload write that was answered with a frame. -/
theorem mbxWritePayloadThenTerminator : Obligations.MbxWritePayloadThenTerminator := by
  intro s r1 r2 rest f fs hs n payload term
  refine ⟨fun hbad => ?length, fun h1 h15 hissues hr => ?payloadFailed,
    fun h1 h15 hissues hr hr2 => ?terminatorFailed, fun h1 h15 hissues hr hr2 => ?sent⟩
  case length =>
    rw [exec_mbxWrite hs, mbxWrite_invalidLength (s := setLastErr 0#4 s) hbad]
    rfl
  case payloadFailed =>
    have hpayload := tWriteSram_payload hissues ((writeOk_eq_false_iff r1).mpr hr) ⟨h1, h15⟩
    rw [exec_mbxWrite hs, mbxWrite_payloadFailed hpayload ⟨h1, h15⟩]
    rfl
  case terminatorFailed =>
    have hpayload := tWriteSram_payload hissues ((writeOk_iff r1).mpr ⟨f, fs, hr⟩) ⟨h1, h15⟩
    have hterm := tWriteSram_terminator ((writeOk_eq_false_iff r2).mpr hr2) r1 true rest s
    rw [exec_mbxWrite hs, mbxWrite_terminatorFailed hpayload hterm ⟨h1, h15⟩]
    rfl
  case sent =>
    have hpayload := tWriteSram_payload hissues ((writeOk_iff r1).mpr ⟨f, fs, hr⟩) ⟨h1, h15⟩
    have hok : writeOk r2 = true := Bool.eq_true_of_not_eq_false (mt (writeOk_eq_false_iff r2).mp hr2)
    have hterm := tWriteSram_terminator hok r1 true rest s
    rw [exec_mbxWrite hs, mbxWrite_ok hpayload hterm ⟨h1, h15⟩]
    rfl

end Sys2Proof.Machine
end

section
/-! The session's commands (43_tag_session.md R180 to R182): one equation per branch of each operation, and
its calls as functions of the answers lined up for them. -/

open Sys2Proof.Claims

namespace Sys2Proof.Machine

variable {s s1 : State} {u : List Byte} {k : Kind}

/-! ### The branches of the operations -/

theorem discover_noTagFound (h : tInventory s = (none, s1)) :
    discover s = (.fail .noTagFound, record .noTagFound (clearSession s1)) := by
  simp only [discover, h]

theorem discover_ok (h : tInventory s = (some u, s1)) :
    discover s = (.ok (), setDiscovered u s1) := by simp only [discover, h]

theorem select_noUid (h : s.regs.sessUidLen = 0#5) :
    select s = (.fail .selectFailure, record .selectFailure s) := if_pos h

theorem select_ok (hu : s.regs.sessUidLen ≠ 0#5) (h : tSelect s = (true, s1)) :
    select s = (.ok (), setSelected s1) := by simp only [select, if_neg hu, h]

theorem select_selectFailure (hu : s.regs.sessUidLen ≠ 0#5) (h : tSelect s = (false, s1)) :
    select s = (.fail .selectFailure, record .selectFailure (clearSession s1)) := by
  simp only [select, if_neg hu, h]

theorem establish_of_discover_fail (h : discover s = (.fail k, s1)) :
    establish s = (.fail k, s1) := by simp only [establish, h]

theorem establish_of_discover_ok (h : discover s = (.ok (), s1)) : establish s = select s1 := by
  simp only [establish, h]

/-! ### The session register (R22) -/

theorem ofNat_uidLength_toNat (hu : UidBytes u) : (BitVec.ofNat 5 u.length).toNat = u.length := by
  rw [BitVec.toNat_ofNat]
  omega

/-- What is stored is exactly what was returned (R180). -/
theorem setDiscovered_sessUid_take (hu : UidBytes u) (s : State) :
    (setDiscovered u s).regs.sessUid.toList.take u.length = u := overlay_take u _ hu.2

theorem setDiscovered_uid (hu : UidBytes u) (s : State) : (setDiscovered u s).uid = u := by
  rw [State.uid, setDiscovered_regs, ofNat_uidLength_toNat hu]
  exact setDiscovered_sessUid_take hu s

theorem setDiscovered_hasUid (hu : UidBytes u) (s : State) :
    (setDiscovered u s).regs.sessUidLen ≠ 0#5 := by
  intro hzero
  have hlen : u.length = 0 := (ofNat_uidLength_toNat hu).symm.trans (congrArg BitVec.toNat hzero)
  omega

/-- SESS_UID_LEN as the response shows it (R94). -/
theorem zeroExtend_uidLength (hu : UidBytes u) :
    (BitVec.ofNat 5 u.length).zeroExtend 32 = BitVec.ofNat 32 u.length := by
  apply BitVec.eq_of_toNat_eq
  simp only [BitVec.truncate_eq_setWidth, BitVec.toNat_setWidth, BitVec.toNat_ofNat]
  omega

/-! ### The two calls, from their answers -/

/-- s after an inventory call that answered r and found `u`. -/
def State.inventoried (s : State) (r : InvAnswer) (u : Option (List Byte)) : State :=
  { s with env := { s.env with
      invs := s.env.invs.tail
      history := s.env.history ++ [.inventory r]
      value := .found u } }

theorem tInventory_of_answer {r : InvAnswer} {u : Option (List Byte)} (hr : nextInventory s = r)
    (hu : uidOfAnswer r = u) : tInventory s = (u, s.inventoried r u) := by
  rw [tInventory_eq, hr, afterInventory, hu]
  rfl

theorem tSelect_of_answer {r : IssueAnswer} {ok : Bool} (hr : nextIssue s = r)
    (hok : selectAccepted r = ok) :
    tSelect s =
      (ok, s.afterCalls [selectCall s.cfg s.uid r] s.env.issues.tail (.selected ok)) := by
  rw [tSelect_eq, hr, hok]
  rfl

theorem selectAccepted_eq_false_iff (r : IssueAnswer) :
    selectAccepted r = false ↔ r ≠ .frames [[0x00#8]] := by
  rw [← Bool.not_eq_true, selectAccepted_iff]
  rfl

/-! ### What DISCOVER makes of its answer, as a command begins it -/

theorem discover_noTag (hr : nextInventory s = .noTag) :
    discover (setLastErr 0#4 s) =
      (.fail .noTagFound,
        record .noTagFound (clearSession ((setLastErr 0#4 s).inventoried .noTag none))) :=
  discover_noTagFound (tInventory_of_answer (s := setLastErr 0#4 s) hr rfl)

/-- The state of a command that has discovered the UID `b :: bs` and made no other call. -/
def discoveredBy (b : Byte) (bs : List Byte) (s : State) : State :=
  setDiscovered (b :: bs) ((setLastErr 0#4 s).inventoried (.uid b bs) (some (b :: bs)))

theorem uidBytes_cons {bs : List Byte} (h : bs.length ≤ 15) (b : Byte) : UidBytes (b :: bs) := by
  simp only [UidBytes, List.length_cons]
  omega

theorem discover_uid {b : Byte} {bs : List Byte} (hr : nextInventory s = .uid b bs)
    (hlen : bs.length ≤ 15) :
    discover (setLastErr 0#4 s) = (.ok (), discoveredBy b bs s) :=
  discover_ok (tInventory_of_answer (s := setLastErr 0#4 s) hr (uidOfAnswer_uid hlen))

theorem discoveredBy_afterCalls (b : Byte) (bs : List Byte) (s : State) (c : Call)
    (rest : List IssueAnswer) (v : FrameValue) :
    (discoveredBy b bs s).afterCalls [c] rest v =
      { discoveredBy b bs s with env := { s.env with
          issues := rest
          invs := s.env.invs.tail
          history := s.env.history ++ [.inventory (.uid b bs), c]
          value := v } } := by
  simp [State.afterCalls, after, discoveredBy, State.inventoried]

/-! ### The commands, from their operations -/

theorem exec_discover_of_fail (hs : Running s) (h : discover (setLastErr 0#4 s) = (.fail k, s1)) :
    exec .discover s = .next (respondErr 0#32 s1) := by
  obtain ⟨hrun, hhang⟩ := hs
  dsimp only [exec, execDiscover]
  rw [command_of_running hrun hhang, h]

theorem exec_discover_of_ok (hs : Running s) (h : discover (setLastErr 0#4 s) = (.ok (), s1)) :
    exec .discover s = .next (respondErr (s1.regs.sessUidLen.zeroExtend 32) s1) := by
  obtain ⟨hrun, hhang⟩ := hs
  dsimp only [exec, execDiscover]
  rw [command_of_running hrun hhang, h]

theorem exec_select (hs : Running s) :
    exec .select s = .next (answerSelected (select (setLastErr 0#4 s))) := by
  obtain ⟨hrun, hhang⟩ := hs
  dsimp only [exec, execSelect]
  rw [command_of_running hrun hhang]

theorem exec_establish_of_running (hrun : s.regs.halt = false) :
    exec .establish s = complete s (answerSelected (establish (setLastErr 0#4 s))) := by
  dsimp only [exec, execEstablish]
  rw [command_running hrun]

theorem exec_establish (hs : Running s) :
    exec .establish s = .next (answerSelected (establish (setLastErr 0#4 s))) := by
  obtain ⟨hrun, hhang⟩ := hs
  rw [exec_establish_of_running hrun, complete_of_noHang hhang]

/-- Everything ESTABLISH can do, whatever the transport answers (R182): a failure, on the way to which the
session was cleared, or the selection of a session that has a UID. -/
theorem establish_outcomes (s : State) :
    (∃ k s1, (k = .noTagFound ∨ k = .selectFailure) ∧
        establish s = (.fail k, record k (clearSession s1))) ∨
      ∃ s1, establish s = (.ok (), setSelected s1) ∧ s1.regs.lastErr = s.regs.lastErr ∧
        s1.regs.sessUidLen ≠ 0#5 := by
  obtain ⟨_, hd⟩ | ⟨u, _, hpos, hle, hd⟩ := discover_cases s
  · exact .inl ⟨_, _, .inl rfl, establish_of_discover_fail hd⟩
  have hhas := setDiscovered_hasUid ⟨hpos, hle⟩ (tInventory s).2
  obtain ⟨hzero, _⟩ | ⟨_, _, hsel⟩ | ⟨_, _, hsel⟩ :=
    select_cases (setDiscovered u (tInventory s).2)
  · exact absurd hzero hhas
  · exact .inr ⟨_, (establish_of_discover_ok hd).trans hsel, rfl, hhas⟩
  · exact .inl ⟨_, _, .inr rfl, (establish_of_discover_ok hd).trans hsel⟩

/-! ### The settled statements -/

/-- Settles O19: each clause is a branch of the operation; a UID is laid over free bytes, and its length fits
in SESS_UID_LEN. -/
theorem discoverOutcomes : Obligations.DiscoverOutcomes := by
  intro s hs
  refine ⟨fun hr => ?noTag, fun b bs hr hlen => ⟨(discoveredBy b bs s).regs.sessUid, ?bytes, ?uid⟩⟩
  case noTag => rw [exec_discover_of_fail hs (discover_noTag hr)]; rfl
  case bytes => exact setDiscovered_sessUid_take (uidBytes_cons hlen b) _
  case uid =>
    have hdata : (discoveredBy b bs s).regs.sessUidLen.zeroExtend 32 =
        BitVec.ofNat 32 (bs.length + 1) := zeroExtend_uidLength (uidBytes_cons hlen b)
    rw [exec_discover_of_ok hs (discover_uid hr hlen), hdata]
    rfl

/-- Settles O20: the first three clauses are the branches of the operation, and the flags byte has bits 5 and
2 where the encoder puts `address`, chosen by `inventory` = 0, and `inventory`. -/
theorem selectOutcomes : Obligations.SelectOutcomes := by
  intro s hs call
  refine ⟨fun hu => ?noUid, fun hu hr => ?selected, fun hu hr => ?failed, ?address, ?inventory,
    fun haddress hinventory => ?asParameter, rfl⟩
  case noUid =>
    rw [exec_select hs, select_noUid (s := setLastErr 0#4 s) hu]
    rfl
  case selected =>
    have hcall := tSelect_of_answer (s := setLastErr 0#4 s) rfl ((selectAccepted_iff _).mpr hr)
    rw [exec_select hs, select_ok (s := setLastErr 0#4 s) hu hcall]
    rfl
  case failed =>
    have hcall := tSelect_of_answer (s := setLastErr 0#4 s) rfl
      ((selectAccepted_eq_false_iff _).mpr hr)
    rw [exec_select hs, select_selectFailure (s := setLastErr 0#4 s) hu hcall]
    rfl
  case address =>
    rw [selectFlags, encodeFlags_eq_flagsByte]
    obtain ⟨_, _, hbit, _⟩ := flagsByte_bits ..
    exact hbit
  case inventory =>
    rw [selectFlags, encodeFlags_eq_flagsByte]
    obtain ⟨_, _, _, _, _, hbit, _⟩ := flagsByte_bits ..
    exact hbit
  case asParameter => rw [selectFlags, ← haddress, ← hinventory]

/-- Settles O21: DISCOVER's UID is the session's, so that SELECT sends exactly it, and the answer lined up
for the select decides between the last two branches. -/
theorem establishOutcomes : Obligations.EstablishOutcomes := by
  intro s hs
  refine ⟨fun hr => ?noTag, fun b bs r rest hinv hlen hissues =>
    ⟨(discoveredBy b bs s).regs.sessUid, ?bytes, fun hr => ?selected, fun hr => ?failed⟩⟩
  case noTag =>
    rw [exec_establish hs, establish_of_discover_fail (discover_noTag hr)]
    rfl
  case bytes => exact setDiscovered_sessUid_take (uidBytes_cons hlen b) _
  all_goals
    have huid : (discoveredBy b bs s).uid = b :: bs := setDiscovered_uid (uidBytes_cons hlen b) _
    have hhas : (discoveredBy b bs s).regs.sessUidLen ≠ 0#5 :=
      setDiscovered_hasUid (uidBytes_cons hlen b) _
    have hanswer : nextIssue (discoveredBy b bs s) = r := nextIssue_of_issues hissues
    obtain rfl : s.env.issues.tail = rest := congrArg List.tail hissues
    rw [exec_establish hs, establish_of_discover_ok (discover_uid hinv hlen)]
  case selected =>
    have hcall := tSelect_of_answer hanswer ((selectAccepted_iff r).mpr hr)
    rw [select_ok hhas hcall, huid, discoveredBy_afterCalls]
    rfl
  case failed =>
    have hcall := tSelect_of_answer hanswer ((selectAccepted_eq_false_iff r).mpr hr)
    rw [select_selectFailure hhas hcall, huid, discoveredBy_afterCalls]
    rfl

/-- Settles O22: what ESTABLISH leaves is what its last step, a failure or a SELECT that went through, made of
the session. -/
theorem establishLeavesNoPartialSession : Obligations.EstablishLeavesNoPartialSession := by
  intro s t hrun h
  rw [exec_establish_of_running hrun] at h
  obtain rfl := complete_next h
  obtain ⟨k, s1, hk, hfail⟩ | ⟨s1, hok, herr, hu⟩ := establish_outcomes (setLastErr 0#4 s)
  · rw [hfail]
    obtain rfl | rfl := hk
    · exact .inr ⟨.inl rfl, rfl, rfl⟩
    · exact .inr ⟨.inr rfl, rfl, rfl⟩
  · rw [hok]
    have hrsp : (respondErr 1#32 (setSelected s1)).rsp = some { status := 0#4, data := 1#32 } := by
      rw [respondErr_rsp, setSelected_regs, herr]
      rfl
    exact .inl ⟨hrsp, rfl, hu⟩

end Sys2Proof.Machine
end

section
/-! What a tick may do to the registers once Init has been left (44_arbiter_fsm.md R193 to R197): the two polling
handlers write BLK, DIR and the RX registers, and no tick writes the session (43_tag_session.md R183). -/

namespace Sys2Proof.Machine

variable {s t : State}

/-! ### The session registers (R22) -/

/-- SESS_UID, SESS_UID_LEN and SESS_SELECTED. -/
def Regs.session (r : Regs) : Vector Byte 16 × BitVec 5 × Bool :=
  (r.sessUid, r.sessUidLen, r.sessSelected)

theorem takeHalt_session (k : Kind) (s : State) :
    (takeHalt k s).regs.session = s.regs.session := by
  rw [takeHalt_regs]
  rfl

theorem reloadWatchdog_session (cur next : BitVec 3) (now : BitVec 32) (s : State) :
    (reloadWatchdog cur next now s).regs.session = s.regs.session := by
  unfold reloadWatchdog
  split <;> rfl

theorem tickBody_session (h : Handler) (s : State) :
    (tickBody h s).regs.session = (runHandler h s.inp.now s).2.regs.session :=
  reloadWatchdog_session ..

/-! ### The handlers other than Init's -/

/-- All a handler other than Init's may write where it does not halt the block. -/
def maskPoll (r : Regs) : Regs := maskDirection (maskRx r)

theorem Effect.poll_of_blk (h : Effect maskBlk s t) : Effect maskPoll s t := h.mono fun _ => rfl

theorem Effect.poll_of_direction (h : Effect maskDirection s t) : Effect maskPoll s t :=
  h.mono fun _ => rfl

theorem Effect.poll_of_rx (h : Effect maskRx s t) : Effect maskPoll s t := h.mono fun _ => rfl

theorem Effect.poll_of_id (h : Effect id s t) : Effect maskPoll s t := h.mono fun _ => rfl

theorem Effect.session_eq (h : Effect maskPoll s t) : t.regs.session = s.regs.session := by
  have hmask := congrArg Regs.session h.regs
  exact hmask

theorem hTriggerEnergyHarvest_effect (s : State) :
    Effect maskPoll s (hTriggerEnergyHarvest s).2 := by
  unfold hTriggerEnergyHarvest
  have hr := (readNamed_effect .ehLoadOk s).poll_of_blk
  rcases h : readNamed .ehLoadOk s with ⟨v | k, s1⟩ <;> exact hr.of h

theorem waitReadMailbox_effect (s : State) : Effect maskPoll s (waitReadMailbox s).2 := by
  unfold waitReadMailbox
  have hm := (mbxRead_effect 0#8 s).poll_of_rx
  rcases h : mbxRead 0#8 s with ⟨m | k, s1⟩
  · replace hm := hm.of h
    dsimp only
    split
    · have hr := (readNamed_effect .sramDataRdy s1).poll_of_blk
      rcases h2 : readNamed .sramDataRdy s1 with ⟨v | k, s2⟩ <;> exact hm.trans (hr.of h2)
    · exact hm.trans (record_effect ..)
  · exact hm.of h

theorem waitPoll_effect (s : State) : Effect maskPoll s (waitPoll s).2 := by
  unfold waitPoll
  have hd := (dataDirection_effect s).poll_of_direction
  rcases h : dataDirection s with ⟨d | k, s1⟩
  · replace hd := hd.of h
    dsimp only
    split
    · have hr := (readNamed_effect .sramDataRdy s1).poll_of_blk
      rcases h2 : readNamed .sramDataRdy s1 with ⟨v | k, s2⟩
      · replace hr := hd.trans (hr.of h2)
        dsimp only
        split
        · exact hr.trans (waitReadMailbox_effect s2)
        · exact hr
      · exact hd.trans (hr.of h2)
    · exact hd
  · exact hd.of h

theorem hWaitNfcToI2c_effect (s : State) : Effect maskPoll s (hWaitNfcToI2c s).2 := by
  unfold hWaitNfcToI2c
  have hd := (dataDirection_effect s).poll_of_direction
  rcases h : dataDirection s with ⟨d | k, s1⟩
  · replace hd := hd.of h
    dsimp only
    split
    · have hw := (mbxWrite_effect s1).poll_of_id
      rcases h2 : mbxWrite s1 with ⟨_ | k, s2⟩ <;> exact hd.trans (hw.of h2)
    · exact hd
  · exact hd.of h

theorem runHandler_session {h : Handler} (hinit : h ≠ .init) (now : BitVec 32) (s : State) :
    (runHandler h now s).2.regs.session = s.regs.session := by
  cases h with
  | init => exact absurd rfl hinit
  | triggerEnergyHarvest => exact (hTriggerEnergyHarvest_effect s).session_eq
  | waitI2cToNfc =>
    dsimp only [runHandler, hWaitI2cToNfc]
    split
    · exact takeHalt_session .timeout s
    · exact (waitPoll_effect s).session_eq
  | waitNfcToI2c => exact (hWaitNfcToI2c_effect s).session_eq
  | fatal => exact takeHalt_session .fatal s

/-! ### The tick -/

theorem handlerOf_ne_init {st : BitVec 3} (h : st ≠ 0#3) : handlerOf st ≠ .init := by
  revert st
  decide

/-- Settles O40: the handler that STATE selects is not Init's, and of what a tick does besides, the watchdog
and STATE are no session registers. -/
theorem tickKeepsSessionAfterInit : Obligations.TickKeepsSessionAfterInit := by
  intro s t hstate h
  have hkeeps : t.regs.session = s.regs.session := by
    obtain ⟨_, rfl⟩ | ⟨_, rfl⟩ := command_next h
    · rfl
    · exact (tickBody_session ..).trans (runHandler_session (handlerOf_ne_init hstate) ..)
  simpa only [Regs.session, Prod.mk.injEq] using hkeeps

end Sys2Proof.Machine
end

section
/-! Completion (44_arbiter_fsm.md R203, 93_implementation_defined.md U2; log entry 3): every well-formed
instruction completes with a state that does not depend on which call never returns, or is a flags row,
which makes no call. -/

namespace Sys2Proof.Machine

/-! ### Meanings that do not read which call never returns -/

/-- The function does the same with another `hangAt`, and keeps it. -/
def KeepsHang (f : State → State) : Prop := ∀ h s, f (hanging h s) = hanging h (f s)

theorem KeepsHang.answer {α : Type} {op : State → Result α × State}
    (hop : ∀ h s, op (hanging h s) = hangingResult h (op s)) (layout : α → BitVec 32) :
    KeepsHang fun s => answer layout (op s) := by
  intro h s
  dsimp only
  rw [hop]
  rcases op s with ⟨v | k, s1⟩ <;> rfl

theorem KeepsHang.answerSelected {op : State → Result Unit × State}
    (hop : ∀ h s, op (hanging h s) = hangingResult h (op s)) :
    KeepsHang fun s => answerSelected (op s) := by
  intro h s
  dsimp only
  rw [hop]
  rcases op s with ⟨v | k, s1⟩ <;> rfl

theorem tickBody_keepsHang (hd : Handler) : KeepsHang (tickBody hd) :=
  fun h s => tickBody_hanging h hd s

/-! ### The meanings, by the format of the row -/

/-- Every row of the command port, and every handler's row, is a command. -/
theorem exec_command {i : Instr} (hf : i.format = .cmd52 ∨ i.format = .state3) :
    ∃ body, (∀ s, exec i s = command body s) ∧ KeepsHang body := by
  cases i with
  | tick => exact ⟨_, execTick.eq_1, fun h s => tickBody_hanging h _ s⟩
  | readBlock a => exact ⟨_, execReadBlock.eq_1 a, .answer (fun h => readBlock_hanging h a) _⟩
  | readByte a b =>
    exact ⟨_, execReadByte.eq_1 a b, .answer (fun h => readByte_hanging h a b.toNat) _⟩
  | readRegisterBit a =>
    exact ⟨_, execReadRegisterBit.eq_1 a,
      .answer (fun h s => readField_hanging h (fieldReg s.cfg a) s) _⟩
  | readConfigBit a =>
    exact ⟨_, execReadConfigBit.eq_1 a,
      .answer (fun h s => readField_hanging h (fieldCfg s.cfg a) s) _⟩
  | writeBlock a w =>
    refine ⟨_, execWriteBlock.eq_1 a w, fun h s => ?_⟩
    rw [writeBlock_hanging]
    rcases writeBlock a w s with ⟨v | k, s1⟩ <;> rfl
  | mbxRead b =>
    refine ⟨_, execMbxRead.eq_1 b, fun h s => ?_⟩
    rw [mbxRead_hanging]
    rcases mbxRead b s with ⟨v | k, s1⟩ <;> rfl
  | mbxWrite => exact ⟨_, execMbxWrite.eq_1, .answer mbxWrite_hanging _⟩
  | discover =>
    refine ⟨_, execDiscover.eq_1, fun h s => ?_⟩
    rw [discover_hanging]
    rcases discover s with ⟨v | k, s1⟩ <;> rfl
  | select => exact ⟨_, execSelect.eq_1, .answerSelected select_hanging⟩
  | establish => exact ⟨_, execEstablish.eq_1, .answerSelected establish_hanging⟩
  | dataDirection => exact ⟨_, execDataDirection.eq_1, .answer dataDirection_hanging _⟩
  | reservedOp oo => exact ⟨_, execReservedOp.eq_1 oo, fun _ _ => rfl⟩
  | hInit => exact ⟨_, execHInit.eq_1, tickBody_keepsHang _⟩
  | hTriggerEnergyHarvest => exact ⟨_, execHTriggerEnergyHarvest.eq_1, tickBody_keepsHang _⟩
  | hWaitI2cToNfc => exact ⟨_, execHWaitI2cToNfc.eq_1, tickBody_keepsHang _⟩
  | hWaitNfcToI2c => exact ⟨_, execHWaitNfcToI2c.eq_1, tickBody_keepsHang _⟩
  | hFatal => exact ⟨_, execHFatal.eq_1, tickBody_keepsHang _⟩
  | hFatalDefault57 x => exact ⟨_, execHFatalDefault57.eq_1 x, tickBody_keepsHang _⟩
  | hFatalDefault6 => exact ⟨_, execHFatalDefault6.eq_1, tickBody_keepsHang _⟩
  | _ => simp [Instr.format] at hf

/-- The flags rows touch FE_OPTS alone. -/
theorem exec_flagsRow {i : Instr} (hf : i.format = .flags8 ∨ i.format = .feOpts9) :
    ∃ v, ∀ s, exec i s = .next (setFeOpts v s) := by
  cases i with
  | flags | encodeFlags => exact ⟨_, fun _ => rfl⟩
  | _ => simp [Instr.format] at hf

/-- What the instruction completes with does not depend on which call never returns. -/
def Completes (i : Instr) : Prop := ∃ g, KeepsHang g ∧ ∀ s, exec i s = complete s (g s)

theorem Completes.ofCommand {i : Instr} {body : State → State} (hbody : KeepsHang body)
    (hi : ∀ s, exec i s = command body s) : Completes i := by
  refine ⟨fun s => if s.regs.halt then answerHalted s else body (setLastErr 0#4 s), ?_, hi⟩
  intro h s
  dsimp only
  rw [hanging_regs]
  split
  · exact answerHalted_hanging h s
  · exact hbody h (setLastErr 0#4 s)

theorem Completes.ofFrame {i : Instr} {α : Type} {f : State → α × State}
    (hf : ∀ h s, f (hanging h s) = hangingResult h (f s)) (hi : ∀ s, exec i s = frameRow f s) :
    Completes i := by
  refine ⟨fun s => if s.regs.halt then s else (f s).2, ?_, hi⟩
  intro h s
  dsimp only
  rw [hanging_regs]
  split
  · rfl
  · rw [hf]; rfl

theorem exec_frame_completes {i : Instr} (hf : i.format = .tframe) (hw : wellFormed i = true) :
    Completes i := by
  cases i with
  | tReadConfig a => exact .ofFrame (fun h => tReadConfig_hanging h a) (execTReadConfig.eq_1 a)
  | tWriteConfig a v =>
    exact .ofFrame (fun h => tWriteConfig_hanging h a v) (execTWriteConfig.eq_1 a v)
  | tReadSram a n =>
    exact .ofFrame (fun h => tReadSram_hanging h a n)
      (exec_tReadSram_of_frameCount (of_decide_eq_true hw) a)
  | tWriteSram a d =>
    exact .ofFrame (fun h => tWriteSram_hanging h a d)
      (exec_tWriteSram_of_wholeBlocks (of_decide_eq_true hw) a)
  | tSelect => exact .ofFrame tSelect_hanging execTSelect.eq_1
  | tInventory => exact .ofFrame tInventory_hanging execTInventory.eq_1
  | _ => cases hf

/-- Everything a well-formed instruction can be: one that completes, or a flags row. -/
theorem exec_completes_or_flags {i : Instr} (hw : wellFormed i = true) :
    Completes i ∨ ∃ v, ∀ s, exec i s = .next (setFeOpts v s) := by
  cases hf : i.format with
  | cmd52 =>
    obtain ⟨body, hi, hbody⟩ := exec_command (.inl hf)
    exact .inl (.ofCommand hbody hi)
  | state3 =>
    obtain ⟨body, hi, hbody⟩ := exec_command (.inr hf)
    exact .inl (.ofCommand hbody hi)
  | flags8 => exact .inr (exec_flagsRow (.inl hf))
  | feOpts9 => exact .inr (exec_flagsRow (.inr hf))
  | tframe => exact .inl (exec_frame_completes hf hw)

theorem exec_illFormed {i : Instr} (hw : wellFormed i = false) (s : State) :
    exec i s = .refused .malformedFrame := by
  cases i with
  | tReadSram a n => exact exec_tReadSram_refused (of_decide_eq_false hw) a s
  | tWriteSram a d => exact exec_tWriteSram_refused (of_decide_eq_false hw) a s
  | _ => cases hw

/-! ### The statement, for an instruction of each shape -/

variable {s t : State} {k : Nat}

/-- Where call number k never returns, the outcome is read off the state the instruction completes with
when every call returns: that state's history says whether call k was made. -/
theorem Completes.outcome_of_hangAt {i : Instr} (hi : Completes i) (hk : s.env.hangAt = some k)
    (h : exec i (hanging none s) = .next t) :
    exec i s =
      if t.env.history.length ≤ k then .next (hanging (some k) t) else .fault .transportHang := by
  obtain ⟨g, hg, heq⟩ := hi
  obtain rfl : g (hanging none s) = t := complete_next ((heq _).symm.trans h)
  have hself : hanging (some k) (g s) = g s := by rw [← hg, ← hk, hanging_self]
  rw [heq, complete_of_hangAt hk, hg, hanging_history, hanging_hanging, hself]

theorem Completes.hangAt_of_fault {i : Instr} (hi : Completes i) {e : Fault}
    (h : exec i s = .fault e) : ∃ k, s.env.hangAt = some k := by
  obtain ⟨g, _, heq⟩ := hi
  obtain hnext | ⟨k, hk, _⟩ := complete_cases s (g s)
  · rw [heq, hnext] at h; cases h
  · exact ⟨k, hk⟩

/-- Settles O53: an ill-formed frame is refused; a flags row makes no call; and any other instruction
completes with a state that `complete` alone tests for the call that never returns. -/
theorem wellFormedInstructionsComplete : Obligations.WellFormedInstructionsComplete := by
  intro i s
  cases hw : wellFormed i with
  | false =>
    have hrefused := exec_illFormed hw
    have absurd_fault {e : Fault} (h : exec i s = .fault e) : False := by rw [hrefused] at h; cases h
    have absurd_next {t u : State} (h : exec i t = .next u) : False := by rw [hrefused] at h; cases h
    exact ⟨fun h => Bool.noConfusion h, fun _ => hrefused s, fun e h => (absurd_fault h).elim,
      fun k t _ _ h => (absurd_next h).elim⟩
  | true =>
    obtain hi | ⟨v, hflags⟩ := exec_completes_or_flags hw
    · refine ⟨fun _ hnone => ?completes, fun h => Bool.noConfusion h,
        fun e h => hi.hangAt_of_fault h, fun k t hk _ h => ?hangs⟩
      case completes =>
        obtain ⟨g, _, heq⟩ := hi
        exact ⟨g s, (heq s).trans (complete_of_noHang hnone _)⟩
      case hangs =>
        rw [hi.outcome_of_hangAt hk h]
        exact ⟨fun hlt => if_neg (Nat.not_le.mpr hlt), fun hle => if_pos hle⟩
    · have absurd_fault {e : Fault} (h : exec i s = .fault e) : False := by rw [hflags] at h; cases h
      refine ⟨fun _ _ => ⟨_, hflags s⟩, fun h => Bool.noConfusion h,
        fun e h => (absurd_fault h).elim, fun k t hk hmade h => ?_⟩
      obtain rfl : setFeOpts v (hanging none s) = t :=
        Host.Outcome.next.inj ((hflags _).symm.trans h)
      refine ⟨fun hlt => absurd hmade (Nat.not_le.mpr hlt), fun _ => ?_⟩
      have hself : setFeOpts v s = hanging (some k) (setFeOpts v (hanging none s)) := by
        rw [← hk]; rfl
      rw [hflags, hself]

end Sys2Proof.Machine
end

section
/-! A halted block (44_arbiter_fsm.md R201): every command answers Fatal, and no event but a reset clears
HALT. -/

namespace Sys2Proof.Machine

variable {s : State} {i : Instr}

theorem exec_of_stopped (hf : i.format = .cmd52) (hhalt : s.regs.halt = true)
    (hhang : s.env.hangAt = none) : exec i s = .next (answerHalted s) := by
  obtain ⟨body, hi, _⟩ := exec_command (.inl hf)
  rw [hi, command_halted hhalt, complete_of_noHang hhang]

/-- Bit 8 of the answer's data is HALT (R94, R201). -/
theorem tickData_halted (st : BitVec 3) : tickData st true = 0x100#32 ||| st.zeroExtend 32 := by
  rw [tickData, if_pos rfl, BitVec.or_comm]

/-- Settles O34: every command of a halted block is the halted answer, which writes LAST_ERR alone; and of
the events other than a reset only a command writes a register. -/
theorem haltedBlockAnswersFatal : Obligations.HaltedBlockAnswersFatal := by
  refine ⟨fun i s hf hhalt hhang => ?answer, fun s t hhalt hnr h => ?keeps⟩
  case answer =>
    rw [exec_of_stopped hf hhalt hhang, answerHalted, tickData_halted]
    rfl
  case keeps =>
    obtain ⟨hregs, _⟩ := haltedUntilReset s t hhalt hnr h
    rw [hregs]
    exact hhalt

end Sys2Proof.Machine
end

section
/-! TICK (44_arbiter_fsm.md R190, R197, R200): the handler that STATE selects, and the two that halt the block. -/

open Sys2Proof.Claims

namespace Sys2Proof.Machine

variable {s : State} {h : Handler} {k : Kind}

/-! ### The rows that run a handler -/

theorem exec_tick (s : State) : exec .tick s = command (tickBody (handlerOf s.regs.state)) s :=
  command_congr rfl

/-- The row a STATE code decodes to runs the handler TICK selects on that code (R105, R190). -/
theorem exec_decodeState (c : BitVec 3) (s : State) :
    exec (decodeState c) s = command (tickBody (handlerOf c)) s := by
  have hcodes : c = 0#3 ∨ c = 1#3 ∨ c = 2#3 ∨ c = 3#3 ∨ c = 4#3 ∨ c = 5#3 ∨ c = 6#3 ∨ c = 7#3 := by
    revert c; decide
  obtain rfl | rfl | rfl | rfl | rfl | rfl | rfl | rfl := hcodes <;> rfl

/-- In a running block TICK and the row of STATE's code are the tick of that code's handler. -/
theorem exec_tick_or_row {c : BitVec 3} (hs : Running s) (hc : s.regs.state = c) :
    ∀ i ∈ [Instr.tick, decodeState c],
      exec i s = .next (tickBody (handlerOf c) (setLastErr 0#4 s)) := by
  obtain ⟨hrun, hhang⟩ := hs
  intro i hi
  rw [← command_of_running hrun hhang]
  simp only [List.mem_cons, List.not_mem_nil, or_false] at hi
  obtain rfl | rfl := hi
  · rw [exec_tick, hc]
  · exact exec_decodeState c s

/-! ### The ticks that halt -/

theorem reloadWatchdog_fatal (cur : BitVec 3) (now : BitVec 32) (s : State) :
    reloadWatchdog cur stFatal now s = s := by simp [reloadWatchdog]

theorem takeHalt_eq (k : Kind) (s : State) :
    takeHalt k s =
      { s with
        regs := { s.regs with
          state := stFatal, halt := true, lastErr := k.code
          exitCause := if k = .fatal ∧ s.regs.exitCause ≠ 0#4 then s.regs.exitCause else k.code }
        log := s.log ++ [k] } := by
  rw [← takeHalt_regs]
  unfold takeHalt
  split <;> rfl

/-- A tick whose handler halts the block shows STATE = Fatal and HALT = 1 (R94, R223). -/
theorem tickBody_of_takeHalt (hx : runHandler h s.inp.now s = (stFatal, takeHalt k s)) :
    tickBody h s = respondErr 0x104#32 (takeHalt k s) := by
  have hdata : tickData (takeHalt k s).regs.state (takeHalt k s).regs.halt = 0x104#32 := by
    rw [takeHalt_state, takeHalt_halt]
    decide
  have hstate : setState stFatal (takeHalt k s) = takeHalt k s := rfl
  simp only [tickBody, hx, reloadWatchdog_fatal, hstate, hdata]

theorem handlerOf_eq_fatal {c : BitVec 3} (hc : 4 ≤ c.toNat) : handlerOf c = .fatal := by
  revert c
  decide

/-! ### The settled statements -/

/-- Settles O27: both answer the tick of the handler that STATE selects. -/
theorem tickRunsHandlerOfState : Obligations.TickRunsHandlerOfState :=
  fun s => (exec_tick s).trans (exec_decodeState s.regs.state s).symm

/-- Settles O30: the watchdog is tested before anything is read, and halting is all the handler then does. -/
theorem watchdogHaltsTheBlock : Obligations.WatchdogHaltsTheBlock := by
  intro s hs hstate hlate i hi
  have htimedOut : timedOut s.inp.now s.regs.wdgT0 = true := decide_eq_true hlate
  have hhandler : runHandler .waitI2cToNfc s.inp.now (setLastErr 0#4 s) =
      (stFatal, takeHalt .timeout (setLastErr 0#4 s)) := if_pos htimedOut
  have htick := exec_tick_or_row hs hstate i hi
  rw [tickBody_of_takeHalt (by exact hhandler), takeHalt_eq] at htick
  exact htick

/-- Settles O33: each of the rows, and TICK from code 4 on, is the tick of the defensive handler. -/
theorem fatalHandlerHaltsTheBlock : Obligations.FatalHandlerHaltsTheBlock := by
  intro s i hs hi
  have htick : exec i s = command (tickBody .fatal) s := by
    obtain hrow | ⟨rfl, hcode⟩ := hi
    · simp only [List.mem_cons, List.not_mem_nil, or_false] at hrow
      obtain rfl | rfl | rfl | rfl := hrow <;> rfl
    · rw [exec_tick, handlerOf_eq_fatal hcode]
  obtain ⟨hrun, hhang⟩ := hs
  have hcause : (if Kind.fatal = .fatal ∧ s.regs.exitCause ≠ 0#4 then s.regs.exitCause else 9#4) =
      if s.regs.exitCause = 0#4 then 9#4 else s.regs.exitCause := by simp
  rw [htick, command_of_running hrun hhang, tickBody_of_takeHalt rfl, takeHalt_eq, ← hcause]
  rfl

/-- Settles O23: the two pairs are the two tests of the decode. -/
theorem directionDecodeTable : Obligations.DirectionDecodeTable := by
  refine ⟨rfl, rfl, fun pt ed hi2c hnfc => ?_⟩
  have hi2c' : ¬(pt = 0x0#8 ∧ ed = 0x3#8) := fun ⟨hpt, hed⟩ => hi2c (by rw [hpt, hed])
  have hnfc' : ¬(pt = 0x1#8 ∧ ed = 0x4#8) := fun ⟨hpt, hed⟩ => hnfc (by rw [hpt, hed])
  rw [decodeDir, if_neg hi2c', if_neg hnfc']

end Sys2Proof.Machine
end

section
/-! Where a tick takes STATE and the watchdog (44_arbiter_fsm.md R198, R199), and the commands that leave both
alone (10_state.md R20, R21). -/

open Sys2Proof.Claims

namespace Sys2Proof.Machine

variable {s t : State}

/-! ### The registers of the sequencer -/

/-- STATE, HALT, EXIT_CAUSE and WDG_T0. -/
def Regs.control (r : Regs) : BitVec 3 × Bool × BitVec 4 × BitVec 32 :=
  (r.state, r.halt, r.exitCause, r.wdgT0)

/-- All a command other than TICK may write. -/
def maskCommand (r : Regs) : Regs := maskPoll (maskSession r)

theorem Effect.control_eq (h : Effect maskCommand s t) : t.regs.control = s.regs.control := by
  have hmask := congrArg Regs.control h.regs
  exact hmask

theorem Effect.command_of_poll (h : Effect maskPoll s t) : Effect maskCommand s t :=
  h.mono fun _ => rfl

theorem Effect.command_of_session (h : Effect maskSession s t) : Effect maskCommand s t :=
  h.mono fun _ => rfl

theorem Effect.command_of_blk (h : Effect maskBlk s t) : Effect maskCommand s t :=
  h.poll_of_blk.command_of_poll

theorem Effect.command_of_id (h : Effect id s t) : Effect maskCommand s t :=
  h.poll_of_id.command_of_poll

theorem exec_effect_of_ne_tick {i : Instr} (hf : i.format = .cmd52) (hi : i ≠ .tick)
    (h : exec i s = .next t) : Effect maskCommand (setLastErr 0#4 s) t := by
  cases i with
  | tick => exact absurd rfl hi
  | readBlock a => exact (execReadBlock_reply h).command_of_blk
  | readByte a b => exact (execReadByte_reply h).command_of_blk
  | readRegisterBit a => exact (execReadRegisterBit_reply h).command_of_blk
  | readConfigBit a => exact (execReadConfigBit_reply h).command_of_blk
  | writeBlock a w => exact (execWriteBlock_effect h).command_of_id
  | mbxRead b => exact (execMbxRead_reply h).poll_of_rx.command_of_poll
  | mbxWrite => exact (execMbxWrite_reply h).command_of_id
  | discover => exact (execDiscover_reply h).command_of_session
  | select => exact (execSelect_reply h).command_of_session
  | establish => exact (execEstablish_reply h).command_of_session
  | dataDirection => exact (execDataDirection_reply h).poll_of_direction.command_of_poll
  | reservedOp oo => exact (execReservedOp_reply (oo := oo) h).command_of_id
  | _ => cases hf

/-! ### The next STATE a handler names (R193 to R197) -/

def Handler.nexts : Handler → List (BitVec 3)
  | .init => [stInit, stTriggerEnergyHarvest, stWaitI2cToNfc]
  | .triggerEnergyHarvest => [stTriggerEnergyHarvest, stWaitI2cToNfc]
  | .waitI2cToNfc => [stFatal, stWaitI2cToNfc, stWaitNfcToI2c]
  | .waitNfcToI2c => [stWaitNfcToI2c, stWaitI2cToNfc]
  | .fatal => [stFatal]

theorem waitReadMailbox_next (s : State) :
    (waitReadMailbox s).1 ∈ [stWaitI2cToNfc, stWaitNfcToI2c] := by
  unfold waitReadMailbox
  rcases mbxRead 0#8 s with ⟨m | k, s1⟩
  · dsimp only
    split
    · rcases readNamed .sramDataRdy s1 with ⟨v | k, s2⟩
      · dsimp only
        split <;> decide
      · exact List.mem_cons_self
    · exact List.mem_cons_self
  · exact List.mem_cons_self

theorem waitPoll_next (s : State) : (waitPoll s).1 ∈ [stWaitI2cToNfc, stWaitNfcToI2c] := by
  unfold waitPoll
  rcases dataDirection s with ⟨d | k, s1⟩
  · dsimp only
    split
    · rcases readNamed .sramDataRdy s1 with ⟨v | k, s2⟩
      · dsimp only
        split
        · exact waitReadMailbox_next s2
        · exact List.mem_cons_self
      · exact List.mem_cons_self
    · exact List.mem_cons_self
  · exact List.mem_cons_self

theorem hWaitNfcToI2c_next (s : State) :
    (hWaitNfcToI2c s).1 ∈ [stWaitNfcToI2c, stWaitI2cToNfc] := by
  unfold hWaitNfcToI2c
  rcases dataDirection s with ⟨d | k, s1⟩
  · dsimp only
    split
    · rcases mbxWrite s1 with ⟨_ | k, s2⟩ <;> simp
    · exact List.mem_cons_self
  · exact List.mem_cons_self

theorem runHandler_next (h : Handler) (now : BitVec 32) (s : State) :
    (runHandler h now s).1 ∈ h.nexts := by
  cases h with
  | init =>
    dsimp only [runHandler, hInit]
    rcases establish s with ⟨_ | k, s1⟩
    · dsimp only
      split <;> decide
    · exact List.mem_cons_self
  | triggerEnergyHarvest =>
    dsimp only [runHandler, hTriggerEnergyHarvest]
    rcases readNamed .ehLoadOk s with ⟨v | k, s1⟩
    · dsimp only
      split <;> decide
    · exact List.mem_cons_self
  | waitI2cToNfc =>
    dsimp only [runHandler, hWaitI2cToNfc]
    split
    · exact List.mem_cons_self
    · exact List.mem_cons_of_mem _ (waitPoll_next s)
  | waitNfcToI2c => exact hWaitNfcToI2c_next s
  | fatal => exact List.mem_cons_self

/-- What the handlers name is the table of R198. -/
theorem mem_transitions_of_next (c : BitVec 3) :
    ∀ next ∈ (handlerOf c).nexts, (c, next) ∈ transitions := by
  revert c
  decide

/-! ### STATE and HALT after a tick -/

theorem tickBody_state (h : Handler) (s : State) :
    (tickBody h s).regs.state = (runHandler h s.inp.now s).1 := rfl

theorem tickBody_halt (h : Handler) (s : State) :
    (tickBody h s).regs.halt = (runHandler h s.inp.now s).2.regs.halt :=
  (reloadWatchdog_effect s.regs.state (runHandler h s.inp.now s).1 s.inp.now _).halt_eq

/-- A tick of a running block ends in Fatal exactly when its handler halted the block. -/
theorem tickBody_fatal_iff_halt (h : Handler) (hrun : s.regs.halt = false) :
    (tickBody h s).regs.state = stFatal ↔ (tickBody h s).regs.halt = true := by
  rw [tickBody_state, tickBody_halt]
  obtain ⟨k, _, hx⟩ | ⟨hnext, heff⟩ := runHandler_cases h s.inp.now s
  · rw [hx]
    exact iff_of_true rfl (takeHalt_halt k s)
  · have hne : (runHandler h s.inp.now s).1 ≠ stFatal := fun heq =>
      absurd (heq ▸ hnext) (by decide)
    exact iff_of_false hne (by rw [heff.halt_eq, hrun]; decide)

/-- Settles O36: a tick ends in a STATE its handler names; no other command has an effect on the registers
of the sequencer. -/
theorem transitionTable : Obligations.TransitionTable := by
  intro i s t hf hrun h
  refine ⟨?tick, ?other⟩
  case tick =>
    rintro rfl
    rw [exec_tick, command_running hrun] at h
    obtain rfl := complete_next h
    exact ⟨mem_transitions_of_next _ _ (runHandler_next ..),
      tickBody_fatal_iff_halt (s := setLastErr 0#4 s) _ hrun⟩
  case other =>
    intro hi
    have hcontrol : t.regs.control = s.regs.control := (exec_effect_of_ne_tick hf hi h).control_eq
    simpa only [Regs.control, Prod.mk.injEq] using hcontrol

/-! ### The watchdog after a tick -/

theorem takeHalt_wdgT0 (k : Kind) (s : State) : (takeHalt k s).regs.wdgT0 = s.regs.wdgT0 := by
  rw [takeHalt_regs]

theorem Effect.wdgT0_eq (h : Effect maskCommand s t) : t.regs.wdgT0 = s.regs.wdgT0 := by
  have hmask := congrArg Regs.wdgT0 h.regs
  exact hmask

/-- H_Init writes WDG_T0 only on a tick that leaves Init, and no other handler writes it. -/
theorem runHandler_wdgT0 (h : Handler) (now : BitVec 32) (s : State) :
    (runHandler h now s).2.regs.wdgT0 = s.regs.wdgT0 ∨
      h = .init ∧ (runHandler h now s).1 ≠ stInit ∧ (runHandler h now s).1 ≠ stFatal := by
  cases h with
  | init =>
    dsimp only [runHandler, hInit]
    have he := (establish_effect s).command_of_session
    rcases hx : establish s with ⟨_ | k, s1⟩
    · refine .inr ⟨rfl, ?_⟩
      dsimp only
      split <;> decide
    · exact .inl (he.of hx).wdgT0_eq
  | triggerEnergyHarvest => exact .inl (hTriggerEnergyHarvest_effect s).command_of_poll.wdgT0_eq
  | waitI2cToNfc =>
    dsimp only [runHandler, hWaitI2cToNfc]
    split
    · exact .inl (takeHalt_wdgT0 .timeout s)
    · exact .inl (waitPoll_effect s).command_of_poll.wdgT0_eq
  | waitNfcToI2c => exact .inl (hWaitNfcToI2c_effect s).command_of_poll.wdgT0_eq
  | fatal => exact .inl (takeHalt_wdgT0 .fatal s)

theorem handlerOf_eq_init_iff (c : BitVec 3) : handlerOf c = .init ↔ c = stInit := by
  revert c
  decide

theorem reloadWatchdog_wdgT0 (cur next : BitVec 3) (now : BitVec 32) (s : State) :
    (reloadWatchdog cur next now s).regs.wdgT0 =
      if next ≠ cur ∧ next ≠ stFatal ∧ (cur = stInit ∨ s.cfg.wdgReloadOnTransition = true) then now
      else s.regs.wdgT0 := by
  unfold reloadWatchdog
  split <;> rfl

theorem runHandler_steady (h : Handler) (now : BitVec 32) (s : State) :
    Steady s (runHandler h now s).2 := by
  obtain ⟨k, _, hx⟩ | ⟨_, heff⟩ := runHandler_cases h now s
  · rw [hx]; exact takeHalt_steady k s
  · exact heff.toSteady

/-- The reload rule of R199 is all a tick does to WDG_T0. -/
theorem tickBody_wdgT0 (s : State) :
    (tickBody (handlerOf s.regs.state) s).regs.wdgT0 =
      (reloadWatchdog s.regs.state (tickBody (handlerOf s.regs.state) s).regs.state s.inp.now
        s).regs.wdgT0 := by
  have htick : (tickBody (handlerOf s.regs.state) s).regs.wdgT0 =
      (reloadWatchdog s.regs.state (tickBody (handlerOf s.regs.state) s).regs.state s.inp.now
        (runHandler (handlerOf s.regs.state) s.inp.now s).2).regs.wdgT0 := rfl
  rw [htick, reloadWatchdog_wdgT0, reloadWatchdog_wdgT0,
    (runHandler_steady (handlerOf s.regs.state) s.inp.now s).cfg, tickBody_state]
  obtain hkeeps | ⟨hinit, hleaves, hnf⟩ :=
    runHandler_wdgT0 (handlerOf s.regs.state) s.inp.now s
  · rw [hkeeps]
  · have hcur := (handlerOf_eq_init_iff _).mp hinit
    have hreloads : (runHandler (handlerOf s.regs.state) s.inp.now s).1 ≠ s.regs.state ∧
        (runHandler (handlerOf s.regs.state) s.inp.now s).1 ≠ stFatal ∧
        (s.regs.state = stInit ∨ s.cfg.wdgReloadOnTransition = true) :=
      ⟨by rw [hcur] at hleaves ⊢; exact hleaves, hnf, .inl hcur⟩
    rw [if_pos hreloads, if_pos hreloads]

/-- Settles O37: a halted block changes neither register, and a tick of a running one follows the reload
rule. -/
theorem watchdogReload : Obligations.WatchdogReload := by
  intro s t h
  obtain ⟨_, rfl⟩ | ⟨_, rfl⟩ := command_next h
  · have hkeeps : (answerHalted s).regs.state = s.regs.state := rfl
    rw [if_neg (fun hleaves => hleaves.1 hkeeps)]
    rfl
  · exact (tickBody_wdgT0 (setLastErr 0#4 s)).trans (reloadWatchdog_wdgT0 ..)

end Sys2Proof.Machine
end

section
/-! How many transport calls a tick makes (44_arbiter_fsm.md R203). -/

open Sys2Proof.Claims

namespace Sys2Proof.Machine

variable {s t u : State} {n m : Nat}

/-! ### The relation -/

/-- t comes after s by at most n transport calls. -/
def CallsWithin (n : Nat) (s t : State) : Prop :=
  t.env.history.length ≤ s.env.history.length + n

theorem CallsWithin.trans (h : CallsWithin n s t) (k : CallsWithin m t u) :
    CallsWithin (n + m) s u := by
  simp only [CallsWithin] at h k ⊢
  omega

theorem CallsWithin.mono (h : CallsWithin n s t) (hnm : n ≤ m) : CallsWithin m s t := by
  simp only [CallsWithin] at h ⊢
  omega

theorem CallsWithin.ofEnv (henv : t.env = s.env) (n : Nat) : CallsWithin n s t := by
  simp only [CallsWithin, henv]
  omega

/-- The state an operation ends in, read off its result. -/
theorem CallsWithin.of {α : Type} {x : α × State} {r : α} (k : CallsWithin n s x.2)
    (h : x = (r, t)) : CallsWithin n s t := by rw [h] at k; exact k

/-- What follows the calls without making another. -/
theorem CallsWithin.quiet (h : CallsWithin n s t) (henv : u.env = t.env) : CallsWithin n s u :=
  h.trans (.ofEnv henv 0)

theorem afterIssue_callsWithin (fl cc : Byte) (p : List Byte) (r : IssueAnswer) (v : FrameValue)
    (s : State) : CallsWithin 1 s (afterIssue fl cc p r v s) := by simp [CallsWithin]

theorem afterInventory_callsWithin (r : InvAnswer) (s : State) :
    CallsWithin 1 s (afterInventory r s) := by simp [CallsWithin]

/-! ### The operations -/

theorem readBlock_callsWithin (a : Byte) (s : State) : CallsWithin 1 s (readBlock a s).2 := by
  have hcall : CallsWithin 1 s (tReadConfig a s).2 := afterIssue_callsWithin ..
  obtain ⟨_, h⟩ | ⟨_, _, h⟩ | ⟨_, b, _, _, h⟩ := readBlock_cases a s <;> rw [h]
  · exact .ofEnv rfl 1
  · exact hcall.quiet rfl
  · exact hcall.quiet rfl

theorem readByte_callsWithin (a : Byte) (k : Nat) (s : State) :
    CallsWithin 1 s (readByte a k s).2 := by
  obtain ⟨_, h⟩ | ⟨_, e, s1, hb, h⟩ | ⟨_, b, s1, hb, h⟩ := readByte_cases a k s <;> rw [h]
  · exact .ofEnv rfl 1
  · exact (readBlock_callsWithin a s).of hb
  · exact (readBlock_callsWithin a s).of hb

theorem readNamed_callsWithin (f : Field) (s : State) : CallsWithin 1 s (readNamed f s).2 := by
  obtain ⟨_, h⟩ | ⟨a, o, m, _, ⟨e, s1, hb, h⟩ | ⟨v, s1, hb, h⟩⟩ :=
    readField_cases (fieldReg s.cfg f.id) s <;> rw [readNamed, readRegisterBit, h]
  · exact .ofEnv rfl 1
  · exact (readByte_callsWithin a o s).of hb
  · exact (readByte_callsWithin a o s).of hb

theorem readChunks_callsWithin (l : List (Byte × Nat)) (s : State) :
    CallsWithin l.length s (readChunks l s).2 := by
  induction l generalizing s with
  | nil => exact .ofEnv rfl 0
  | cons p rest ih =>
    have hcall : CallsWithin 1 s (tReadSram p.1 p.2 s).2 := afterIssue_callsWithin ..
    have h : CallsWithin (rest.length + 1) s (readChunks rest (tReadSram p.1 p.2 s).2).2 :=
      (hcall.trans (ih _)).mono (by omega)
    simp only [readChunks]
    split <;> exact h

/-- The largest mailbox, 62 blocks, is read in 5 chunks (R161). -/
theorem schedule_length_le (hn : n ≤ 62) : (schedule n).length ≤ 5 := by
  rw [schedule_eq_windows, List.length_map, List.length_range]
  omega

theorem mbxRead_callsWithin (tb : Byte) (s : State) : CallsWithin 6 s (mbxRead tb s).2 := by
  have hprobe : CallsWithin 1 s (tReadSram mbxHdrAddr 1 s).2 := afterIssue_callsWithin ..
  obtain ⟨_, h⟩ | ⟨_, _, h⟩ | ⟨_, p, _, ⟨_, h⟩ | ⟨hn, m, s2, hc, h⟩⟩ := mbxRead_cases tb s <;> rw [h]
  · exact .ofEnv rfl 6
  · exact (hprobe.quiet rfl).mono (by decide)
  · exact (hprobe.quiet rfl).mono (by decide)
  · have hchunks := ((readChunks_callsWithin _ _).of hc).mono (schedule_length_le hn)
    exact (hprobe.trans hchunks).quiet rfl

theorem mbxWrite_callsWithin (s : State) : CallsWithin 2 s (mbxWrite s).2 := by
  have hwrite (a : Byte) (d : List Byte) (s : State) : CallsWithin 1 s (tWriteSram a d s).2 :=
    afterIssue_callsWithin ..
  obtain ⟨_, h⟩ | ⟨_, _, ok1, s1, h1, ⟨_, h⟩ | ⟨_, ok2, s2, h2, ⟨_, h⟩ | ⟨_, h⟩⟩⟩ :=
    mbxWrite_cases s <;> rw [h]
  · exact .ofEnv rfl 2
  · exact (((hwrite _ _ s).of h1).quiet rfl).mono (by decide)
  · exact (((hwrite _ _ s).of h1).trans ((hwrite _ _ s1).of h2)).quiet rfl
  · exact ((hwrite _ _ s).of h1).trans ((hwrite _ _ s1).of h2)

theorem discover_callsWithin (s : State) : CallsWithin 1 s (discover s).2 := by
  have hcall : CallsWithin 1 s (tInventory s).2 := afterInventory_callsWithin ..
  obtain ⟨_, h⟩ | ⟨u, _, _, _, h⟩ := discover_cases s <;> rw [h] <;> exact hcall.quiet rfl

theorem select_callsWithin (s : State) : CallsWithin 1 s (select s).2 := by
  have hcall : CallsWithin 1 s (tSelect s).2 := afterIssue_callsWithin ..
  obtain ⟨_, h⟩ | ⟨_, _, h⟩ | ⟨_, _, h⟩ := select_cases s <;> rw [h]
  · exact .ofEnv rfl 1
  · exact hcall.quiet rfl
  · exact hcall.quiet rfl

theorem establish_callsWithin (s : State) : CallsWithin 2 s (establish s).2 := by
  obtain ⟨k, s1, hd, h⟩ | ⟨s1, hd, h⟩ := establish_cases s <;> rw [h]
  · exact ((discover_callsWithin s).of hd).mono (by decide)
  · exact ((discover_callsWithin s).of hd).trans (select_callsWithin s1)

theorem finishDirection_env (d : Direction) (s : State) : (finishDirection d s).2.env = s.env := by
  unfold finishDirection
  split <;> rfl

/-- The reads of DATA_DIRECTION: two fields, and the lock bits where they are checked (R191). -/
def directionCalls (lock : Bool) : Nat := if lock then 3 else 2

theorem dataDirection_callsWithin (s : State) :
    CallsWithin (directionCalls s.inp.lockCheckEn) s (dataDirection s).2 := by
  have htwo : 2 ≤ directionCalls s.inp.lockCheckEn := by unfold directionCalls; split <;> decide
  obtain ⟨k, s1, h1, h⟩ | ⟨pt, s1, h1, hrest⟩ := dataDirection_cases s
  · rw [h]; exact ((readNamed_callsWithin _ s).of h1).mono (by omega)
  have e1 := (readNamed_callsWithin _ s).of h1
  obtain ⟨k, s2, h2, h⟩ | ⟨ed, s2, h2, hrest⟩ := hrest
  · rw [h]; exact (e1.trans ((readNamed_callsWithin _ s1).of h2)).mono htwo
  have e2 := e1.trans ((readNamed_callsWithin _ s1).of h2)
  obtain ⟨_, h⟩ | ⟨hlock, ⟨k, s3, h3, h⟩ | ⟨v, s3, h3, h⟩⟩ := hrest <;> rw [h]
  · exact (e2.quiet (finishDirection_env ..)).mono htwo
  · rw [hlock]
    exact e2.trans ((readByte_callsWithin _ _ s2).of h3)
  · rw [hlock]
    exact (e2.trans ((readByte_callsWithin _ _ s2).of h3)).quiet (finishDirection_env ..)

/-! ### The handlers and the tick -/

theorem waitReadMailbox_callsWithin (s : State) : CallsWithin 7 s (waitReadMailbox s).2 := by
  unfold waitReadMailbox
  have hm := mbxRead_callsWithin 0#8 s
  rcases h : mbxRead 0#8 s with ⟨m | k, s1⟩
  · replace hm := hm.of h
    dsimp only
    split
    · have hr := readNamed_callsWithin .sramDataRdy s1
      rcases h2 : readNamed .sramDataRdy s1 with ⟨v | k, s2⟩ <;> exact hm.trans (hr.of h2)
    · exact (hm.quiet rfl).mono (by decide)
  · exact (hm.of h).mono (by decide)

theorem waitPoll_callsWithin (s : State) :
    CallsWithin (directionCalls s.inp.lockCheckEn + 8) s (waitPoll s).2 := by
  unfold waitPoll
  have hd := dataDirection_callsWithin s
  rcases h : dataDirection s with ⟨d | k, s1⟩
  · replace hd := hd.of h
    dsimp only
    split
    · have hr := readNamed_callsWithin .sramDataRdy s1
      rcases h2 : readNamed .sramDataRdy s1 with ⟨v | k, s2⟩
      · replace hr := hd.trans (hr.of h2)
        dsimp only
        split
        · exact hr.trans (waitReadMailbox_callsWithin s2)
        · exact hr.mono (by omega)
      · exact (hd.trans (hr.of h2)).mono (by omega)
    · exact hd.mono (by omega)
  · exact (hd.of h).mono (by omega)

theorem hWaitNfcToI2c_callsWithin (s : State) :
    CallsWithin (directionCalls s.inp.lockCheckEn + 2) s (hWaitNfcToI2c s).2 := by
  unfold hWaitNfcToI2c
  have hd := dataDirection_callsWithin s
  rcases h : dataDirection s with ⟨d | k, s1⟩
  · replace hd := hd.of h
    dsimp only
    split
    · have hw := mbxWrite_callsWithin s1
      rcases h2 : mbxWrite s1 with ⟨_ | k, s2⟩ <;> exact hd.trans (hw.of h2)
    · exact hd.mono (by omega)
  · exact (hd.of h).mono (by omega)

/-- The most calls a handler makes. -/
def Handler.calls (lock : Bool) : Handler → Nat
  | .init => 2
  | .triggerEnergyHarvest => 1
  | .waitI2cToNfc => directionCalls lock + 8
  | .waitNfcToI2c => directionCalls lock + 2
  | .fatal => 0

theorem runHandler_callsWithin (h : Handler) (now : BitVec 32) (s : State) :
    CallsWithin (h.calls s.inp.lockCheckEn) s (runHandler h now s).2 := by
  cases h with
  | init =>
    dsimp only [runHandler, hInit]
    have he := establish_callsWithin s
    rcases hx : establish s with ⟨_ | k, s1⟩
    · exact (he.of hx).quiet rfl
    · exact he.of hx
  | triggerEnergyHarvest =>
    dsimp only [runHandler, hTriggerEnergyHarvest]
    have hr := readNamed_callsWithin .ehLoadOk s
    rcases hx : readNamed .ehLoadOk s with ⟨v | k, s1⟩ <;> exact hr.of hx
  | waitI2cToNfc =>
    dsimp only [runHandler, hWaitI2cToNfc]
    split
    · exact .ofEnv (takeHalt_env .timeout s) _
    · exact waitPoll_callsWithin s
  | waitNfcToI2c => exact hWaitNfcToI2c_callsWithin s
  | fatal => exact .ofEnv (takeHalt_env .fatal s) 0

theorem tickBody_env (h : Handler) (s : State) :
    (tickBody h s).env = (runHandler h s.inp.now s).2.env := by
  unfold tickBody reloadWatchdog
  dsimp only
  split <;> rfl

theorem handlerOf_calls (c : BitVec 3) (lock : Bool) :
    (handlerOf c).calls lock = tickCallBound c lock := by
  revert c lock
  decide

/-- Settles O38: a halted block makes no call, and a running one at most those of its handler. -/
theorem tickCallsBounded : Obligations.TickCallsBounded := by
  intro s t h
  obtain ⟨_, rfl⟩ | ⟨_, rfl⟩ := command_next h
  · exact CallsWithin.ofEnv (t := answerHalted s) rfl _
  · rw [← handlerOf_calls]
    exact (runHandler_callsWithin _ s.inp.now (setLastErr 0#4 s)).quiet (tickBody_env ..)

end Sys2Proof.Machine
end

section
/-! DATA_DIRECTION (44_arbiter_fsm.md R191, R192): its reads as functions of the answers lined up for them, and
one equation per branch of the operation. -/

open Sys2Proof.Claims

namespace Sys2Proof.Machine

variable {s s1 s2 s3 : State} {k : Kind} {a pt ed : Byte}

/-! ### One read after another -/

/-- The state of a DATA_DIRECTION that has made the calls `cs` and holds the block `w` in BLK, with the answers
`rest` left and `v` delivered last. -/
def directionRead (w : BitVec 32) (cs : List Call) (rest : List IssueAnswer) (v : FrameValue)
    (s : State) : State :=
  setBlk w ((setLastErr 0#4 s).afterCalls cs rest v)

theorem directionRead_nil {rest : List IssueAnswer} (hissues : s.env.issues = rest) :
    directionRead s.regs.blk [] rest s.env.value s = setLastErr 0#4 s := by
  subst hissues
  exact congrArg (setBlk s.regs.blk) (State.afterCalls_nil (setLastErr 0#4 s))

theorem directionRead_afterCalls (w : BitVec 32) (cs ds : List Call) (rest rest' : List IssueAnswer)
    (v v' : FrameValue) (s : State) :
    (directionRead w cs rest v s).afterCalls ds rest' v' = directionRead w (cs ++ ds) rest' v' s :=
  congrArg (setBlk w) (State.afterCalls_afterCalls (setLastErr 0#4 s) cs ds rest rest' v v')

/-- One T_READ_CONFIG whose call is answered by the next answer lined up, which delivers p. -/
theorem tReadConfig_directionRead {r : IssueAnswer} {p : Option (List Byte)}
    (hp : readPayload s.cfg.hdrBytes 4 r = p) (a : Byte) (w : BitVec 32) (cs : List Call)
    (rest : List IssueAnswer) (v : FrameValue) :
    tReadConfig a (directionRead w cs (r :: rest) v s) =
      (p, directionRead w (cs ++ [configRead s.cfg a r]) rest (.read p) s) := by
  rw [← directionRead_afterCalls w cs [configRead s.cfg a r] (r :: rest) rest v (.read p)]
  exact tReadConfig_of_answer (s := directionRead w cs (r :: rest) v s) rfl hp a

/-- A READ_BYTE is a READ_BLOCK and the choice of one of its bytes (R141). -/
theorem readByte_of_readBlock {off : Nat} {b : List Byte} (hoff : off ≤ 3)
    (h : readBlock a s = (.ok b, s1)) : readByte a off s = (.ok (blockByte b off), s1) := by
  simp only [readByte, if_neg (Nat.not_lt.mpr hoff), h]

theorem readByte_of_readBlock_fail {off : Nat} (hoff : off ≤ 3) (h : readBlock a s = (.fail k, s1)) :
    readByte a off s = (.fail k, s1) := by
  simp only [readByte, if_neg (Nat.not_lt.mpr hoff), h]

/-- The next read, answered with a whole frame: its block replaces BLK. -/
theorem readByte_directionRead {off : Nat} {f : List Byte} (ha : ValidAddress a) (hoff : off ≤ 3)
    (hf : WholeFrame s.cfg 4 f) (fs : List (List Byte)) (w : BitVec 32) (cs : List Call)
    (rest : List IssueAnswer) (v : FrameValue) :
    readByte a off (directionRead w cs (.frames (f :: fs) :: rest) v s) =
      (.ok (frameByte s.cfg f off),
        directionRead (frameWord s.cfg f) (cs ++ [configRead s.cfg a (.frames (f :: fs))]) rest
          (.read (some (frameBlock s.cfg f))) s) := by
  have hcall := tReadConfig_directionRead (readPayload_frameBlock hf fs) a w cs rest v
  rw [readByte_of_readBlock hoff (readBlock_delivered ha (congrArg Prod.fst hcall)),
    blockByte_frameBlock _ _ hoff, hcall]
  rfl

/-- The next read, answered with nothing to read: BLK stays. -/
theorem readByte_directionRead_empty {off : Nat} {r : IssueAnswer} (ha : ValidAddress a)
    (hoff : off ≤ 3) (hr : EmptyAnswer s.cfg 4 r) (w : BitVec 32) (cs : List Call)
    (rest : List IssueAnswer) (v : FrameValue) :
    readByte a off (directionRead w cs (r :: rest) v s) =
      (.fail .readError,
        record .readError (directionRead w (cs ++ [configRead s.cfg a r]) rest (.read none) s)) := by
  have hcall := tReadConfig_directionRead (readPayload_of_emptyAnswer hr) a w cs rest v
  rw [readByte_of_readBlock_fail hoff (readBlock_readError ha (congrArg Prod.fst hcall)), hcall]

/-! ### The two fields -/

theorem readNamed_of_readByte {fld : Field} {off : Nat} {mask b : Byte}
    (hrow : fieldReg s.cfg fld.id = some (a, off, mask)) (h : readByte a off s = (.ok b, s1)) :
    readNamed fld s = (.ok (b &&& mask), s1) := by
  rw [readNamed, readRegisterBit, hrow, readField, h]

theorem readNamed_of_readByte_fail {fld : Field} {off : Nat} {mask : Byte}
    (hrow : fieldReg s.cfg fld.id = some (a, off, mask)) (h : readByte a off s = (.fail k, s1)) :
    readNamed fld s = (.fail k, s1) := by
  rw [readNamed, readRegisterBit, hrow, readField, h]

variable {f1 f2 : List Byte} {r : IssueAnswer} {rest : List IssueAnswer}

/-- The state of a DATA_DIRECTION that has read PT_TRANSFER_DIR. -/
def ptRead (f1 : List Byte) (fs1 : List (List Byte)) (rest : List IssueAnswer) (s : State) : State :=
  directionRead (frameWord s.cfg f1) [configRead s.cfg 0xA1#8 (.frames (f1 :: fs1))] rest
    (.read (some (frameBlock s.cfg f1))) s

/-- The state of a DATA_DIRECTION that has read both fields. -/
def fieldsRead (f1 : List Byte) (fs1 : List (List Byte)) (f2 : List Byte) (fs2 : List (List Byte))
    (rest : List IssueAnswer) (s : State) : State :=
  directionRead (frameWord s.cfg f2)
    [configRead s.cfg 0xA1#8 (.frames (f1 :: fs1)), configRead s.cfg 0xA8#8 (.frames (f2 :: fs2))]
    rest (.read (some (frameBlock s.cfg f2))) s

theorem readNamed_ptTransferDir {fs1 : List (List Byte)}
    (hissues : s.env.issues = .frames (f1 :: fs1) :: rest) (hf1 : WholeFrame s.cfg 4 f1) :
    readNamed .ptTransferDir (setLastErr 0#4 s) =
      (.ok (frameByte s.cfg f1 1 &&& 0x01#8), ptRead f1 fs1 rest s) := by
  rw [← directionRead_nil hissues]
  exact readNamed_of_readByte rfl
    (readByte_directionRead (a := 0xA1#8) (off := 1) (by decide) (by decide) hf1 fs1 ..)

theorem readNamed_ptTransferDir_fail (hissues : s.env.issues = r :: rest)
    (hr : EmptyAnswer s.cfg 4 r) :
    readNamed .ptTransferDir (setLastErr 0#4 s) =
      (.fail .readError, record .readError
        (directionRead s.regs.blk [configRead s.cfg 0xA1#8 r] rest (.read none) s)) := by
  rw [← directionRead_nil hissues]
  exact readNamed_of_readByte_fail rfl
    (readByte_directionRead_empty (a := 0xA1#8) (off := 1) (by decide) (by decide) hr ..)

theorem readNamed_edConfig (hf2 : WholeFrame s.cfg 4 f2) (f1 : List Byte) (fs1 fs2 : List (List Byte))
    (rest : List IssueAnswer) :
    readNamed .edConfig (ptRead f1 fs1 (.frames (f2 :: fs2) :: rest) s) =
      (.ok (frameByte s.cfg f2 0 &&& 0x0F#8), fieldsRead f1 fs1 f2 fs2 rest s) :=
  readNamed_of_readByte rfl
    (readByte_directionRead (a := 0xA8#8) (off := 0) (by decide) (by decide) hf2 fs2 ..)

theorem readNamed_edConfig_fail (hr : EmptyAnswer s.cfg 4 r) (f1 : List Byte)
    (fs1 : List (List Byte)) (rest : List IssueAnswer) :
    readNamed .edConfig (ptRead f1 fs1 (r :: rest) s) =
      (.fail .readError, record .readError (directionRead (frameWord s.cfg f1)
        [configRead s.cfg 0xA1#8 (.frames (f1 :: fs1)), configRead s.cfg 0xA8#8 r] rest (.read none)
        s)) :=
  readNamed_of_readByte_fail rfl
    (readByte_directionRead_empty (a := 0xA8#8) (off := 0) (by decide) (by decide) hr ..)

/-! ### The branches of the operation -/

theorem dataDirection_of_first_fail (h1 : readNamed .ptTransferDir s = (.fail k, s1)) :
    dataDirection s = (.fail k, s1) := by simp only [dataDirection, h1]

theorem dataDirection_of_second_fail (h1 : readNamed .ptTransferDir s = (.ok pt, s1))
    (h2 : readNamed .edConfig s1 = (.fail k, s2)) : dataDirection s = (.fail k, s2) := by
  simp only [dataDirection, h1, h2]

theorem dataDirection_of_third_fail (h1 : readNamed .ptTransferDir s = (.ok pt, s1))
    (h2 : readNamed .edConfig s1 = (.ok ed, s2)) (hlock : s.inp.lockCheckEn = true)
    (h3 : readByte 0xA0#8 1 s2 = (.fail k, s3)) : dataDirection s = (.fail k, s3) := by
  simp only [dataDirection, h1, h2, if_pos hlock, h3]

theorem dataDirection_unchecked (h1 : readNamed .ptTransferDir s = (.ok pt, s1))
    (h2 : readNamed .edConfig s1 = (.ok ed, s2)) (hlock : s.inp.lockCheckEn = false) :
    dataDirection s = finishDirection (decodeDir pt ed) s2 := by
  simp only [dataDirection, h1, h2, hlock, Bool.false_eq_true, if_false]

theorem dataDirection_checked {status1 : Byte} (h1 : readNamed .ptTransferDir s = (.ok pt, s1))
    (h2 : readNamed .edConfig s1 = (.ok ed, s2)) (hlock : s.inp.lockCheckEn = true)
    (h3 : readByte 0xA0#8 1 s2 = (.ok status1, s3)) :
    dataDirection s = finishDirection (lockDir s.cfg (decodeDir pt ed) status1) s3 := by
  simp only [dataDirection, h1, h2, if_pos hlock, h3]

/-! ### The direction, by its code (R106) -/

theorem decodeDir_code (pt ed : Byte) :
    (decodeDir pt ed).code =
      if pt = 0x0#8 ∧ ed = 0x3#8 then 1#2 else if pt = 0x1#8 ∧ ed = 0x4#8 then 2#2 else 0#2 := by
  unfold decodeDir
  split
  · rfl
  · split <;> rfl

theorem Direction.code_eq_zero_iff {d : Direction} : d.code = 0#2 ↔ d = .unknown := by
  cases d <;> decide

/-- The lock bits are bits 1 and 0 of byte 1 of the status block (R191). -/
theorem lockBits_eq_iff (b : Byte) (p : BitVec 2) :
    b &&& 0x03#8 = p.zeroExtend 8 ↔ b.extractLsb' 0 2 = p := by
  have hmask : b &&& 0x03#8 = (b.extractLsb' 0 2).zeroExtend 8 := by
    ext i hi
    interval_cases i <;> simp
  rw [hmask]
  constructor
  · intro h
    have hcut := congrArg (BitVec.setWidth 2) h
    simpa using hcut
  · exact fun h => congrArg (BitVec.zeroExtend 8) h

theorem lockDir_code (c : Cfg) (d : Direction) (b : Byte) :
    (lockDir c d b).code =
      if d.code = 1#2 ∧ b &&& 0x03#8 ≠ c.lockPatternI2cNfc.zeroExtend 8 then 3#2
      else if d.code = 2#2 ∧ b &&& 0x03#8 ≠ c.lockPatternNfcI2c.zeroExtend 8 then 3#2
      else d.code := by
  have hi2c : d = .i2cNfc ↔ d.code = 1#2 := by cases d <;> decide
  have hnfc : d = .nfcI2c ↔ d.code = 2#2 := by cases d <;> decide
  simp only [lockDir, apply_ite Direction.code, hi2c, hnfc, ne_eq, lockBits_eq_iff]
  rfl

/-! ### The command -/

theorem exec_dataDirection (hs : Running s) :
    exec .dataDirection s =
      .next (answer (fun d => d.code.zeroExtend 32) (dataDirection (setLastErr 0#4 s))) := by
  obtain ⟨hrun, hhang⟩ := hs
  dsimp only [exec, execDataDirection]
  rw [command_of_running hrun hhang]

/-- How a DATA_DIRECTION that recorded nothing ends: Unknown is recorded, and DIR and the response show the
code (R191). -/
theorem answer_finishDirection (d : Direction) (hclean : s.regs.lastErr = 0#4) :
    answer (fun d : Direction => d.code.zeroExtend 32) (finishDirection d s) =
      { s with
        regs := { s.regs with lastErr := directionStatus d.code, dir := d.code }
        log := s.log ++ directionLog d.code
        rsp := some { status := directionStatus d.code, data := d.code.zeroExtend 32 } } := by
  by_cases hd : d = .unknown
  · subst hd
    rfl
  · have hcode : d.code ≠ 0#2 := mt Direction.code_eq_zero_iff.mp hd
    rw [finishDirection, if_neg hd, directionStatus, if_neg hcode, directionLog, if_neg hcode,
      List.append_nil, ← hclean]
    rfl

theorem directionCode_eq (c : Cfg) (f1 f2 : List Byte) :
    (decodeDir (frameByte c f1 1 &&& 0x01#8) (frameByte c f2 0 &&& 0x0F#8)).code =
      directionCode c f1 f2 := decodeDir_code ..

/-- Settles O24: each read uses up one answer, and the two bytes decide the direction. -/
theorem dataDirectionReadsTwoFields : Obligations.DataDirectionReadsTwoFields := by
  intro s f1 f2 fs1 fs2 rest hs hlock hissues hf1 hf2 d
  have h1 := readNamed_ptTransferDir hissues hf1
  have h2 := readNamed_edConfig hf2 f1 fs1 fs2 rest
  rw [exec_dataDirection hs, dataDirection_unchecked h1 h2 hlock, answer_finishDirection _ rfl,
    directionCode_eq]
  rfl

/-- Settles O25: the third read uses up one answer more, and its byte 1 is held against the patterns. -/
theorem dataDirectionChecksLocks : Obligations.DataDirectionChecksLocks := by
  intro s f1 f2 f3 fs1 fs2 fs3 rest hs hlock hissues hf1 hf2 hf3 d0 lk d
  have h1 := readNamed_ptTransferDir hissues hf1
  have h2 := readNamed_edConfig hf2 f1 fs1 fs2 (.frames (f3 :: fs3) :: rest)
  have h3 : readByte 0xA0#8 1 (fieldsRead f1 fs1 f2 fs2 (.frames (f3 :: fs3) :: rest) s) = _ :=
    readByte_directionRead (by decide) (by decide) hf3 fs3 ..
  rw [exec_dataDirection hs, dataDirection_checked h1 h2 hlock h3, answer_finishDirection _ rfl,
    setLastErr_cfg, lockDir_code, directionCode_eq]
  rfl

/-- Settles O26: a read that delivers nothing leaves BLK as the read before it left it, and ends the operation
before DIR is written. -/
theorem dataDirectionFailures : Obligations.DataDirectionFailures := by
  intro s r1 r2 r3 f1 f2 fs1 fs2 rest hs failed
  refine ⟨fun hissues hr1 => ?first, fun hissues hr1 hf1 hr2 => ?second,
    fun hlock hissues hr1 hf1 hr2 hf2 hr3 => ?third⟩
  case first =>
    have h1 := readNamed_ptTransferDir_fail hissues hr1
    rw [exec_dataDirection hs, dataDirection_of_first_fail h1]
    rfl
  case second =>
    subst hr1
    have h1 := readNamed_ptTransferDir hissues hf1
    have h2 := readNamed_edConfig_fail hr2 f1 fs1 rest
    rw [exec_dataDirection hs, dataDirection_of_second_fail h1 h2]
    rfl
  case third =>
    subst hr1 hr2
    have h1 := readNamed_ptTransferDir hissues hf1
    have h2 := readNamed_edConfig hf2 f1 fs1 fs2 (r3 :: rest)
    have h3 : readByte 0xA0#8 1 (fieldsRead f1 fs1 f2 fs2 (r3 :: rest) s) = _ :=
      readByte_directionRead_empty (by decide) (by decide) hr3 ..
    rw [exec_dataDirection hs, dataDirection_of_third_fail h1 h2 hlock h3]
    rfl

end Sys2Proof.Machine
end

section
/-! How an operation's result shows in LAST_ERR and in a command's response (10_state.md R25, 30_encoding.md R90,
R94). -/

namespace Sys2Proof.Machine

variable {α : Type} {s s1 s2 : State} {status : α → BitVec 4}

/-! ### What a result leaves in LAST_ERR -/

/-- LAST_ERR of an operation that answers r: the kind's code on Fail, `status` of the value on Ok. -/
def Result.lastErr (status : α → BitVec 4) : Result α → BitVec 4
  | .ok v => status v
  | .fail k => k.code

/-- The operation left in LAST_ERR what its result says. -/
def Reports (status : α → BitVec 4) (x : Result α × State) : Prop :=
  x.2.regs.lastErr = x.1.lastErr status

/-- Nothing is recorded on Ok. -/
def silent (_ : α) : BitVec 4 := 0#4

theorem Reports.of {x : Result α × State} {r : Result α} (h : Reports status x) (hx : x = (r, s1)) :
    s1.regs.lastErr = r.lastErr status := by rw [hx] at h; exact h

theorem readBlock_reports (a : Byte) (hclean : s.regs.lastErr = 0#4) :
    Reports silent (readBlock a s) := by
  obtain ⟨_, h⟩ | ⟨_, _, h⟩ | ⟨_, b, _, _, h⟩ := readBlock_cases a s <;> rw [h]
  · rfl
  · rfl
  · exact hclean

theorem readByte_reports (a : Byte) (off : Nat) (hclean : s.regs.lastErr = 0#4) :
    Reports silent (readByte a off s) := by
  have hblock := readBlock_reports a hclean
  obtain ⟨_, h⟩ | ⟨_, e, s1, hb, h⟩ | ⟨_, b, s1, hb, h⟩ := readByte_cases a off s <;> rw [h]
  · rfl
  · exact hblock.of hb
  · exact hblock.of hb

theorem readNamed_reports (f : Field) (hclean : s.regs.lastErr = 0#4) :
    Reports silent (readNamed f s) := by
  obtain ⟨_, h⟩ | ⟨a, off, m, _, ⟨e, s1, hb, h⟩ | ⟨v, s1, hb, h⟩⟩ :=
    readField_cases (fieldReg s.cfg f.id) s <;> rw [readNamed, readRegisterBit, h]
  · rfl
  · exact (readByte_reports a off hclean).of hb
  · have hsilent : s1.regs.lastErr = 0#4 := (readByte_reports a off hclean).of hb
    exact hsilent

/-- DATA_DIRECTION answers Unknown as Ok and records it (R191). -/
theorem dataDirection_reports (hclean : s.regs.lastErr = 0#4) :
    Reports (fun d : Direction => Claims.directionStatus d.code) (dataDirection s) := by
  have hfinish (d : Direction) {u : State} (hu : u.regs.lastErr = 0#4) :
      Reports (fun d : Direction => Claims.directionStatus d.code) (finishDirection d u) := by
    cases d with
    | unknown => rfl
    | i2cNfc | nfcI2c | locked => exact hu
  obtain ⟨k, s1, h1, h⟩ | ⟨pt, s1, h1, hrest⟩ := dataDirection_cases s
  · rw [h]; exact (readNamed_reports _ hclean).of h1
  have e1 := (readNamed_reports _ hclean).of h1
  obtain ⟨k, s2, h2, h⟩ | ⟨ed, s2, h2, hrest⟩ := hrest
  · rw [h]; exact (readNamed_reports _ e1).of h2
  have e2 := (readNamed_reports _ e1).of h2
  obtain ⟨_, h⟩ | ⟨_, ⟨k, s3, h3, h⟩ | ⟨v, s3, h3, h⟩⟩ := hrest <;> rw [h]
  · exact hfinish _ e2
  · exact (readByte_reports _ _ e2).of h3
  · exact hfinish _ ((readByte_reports _ _ e2).of h3)

theorem mbxRead_reports (tb : Byte) (hclean : s.regs.lastErr = 0#4) :
    Reports silent (mbxRead tb s) := by
  obtain ⟨_, h⟩ | ⟨_, _, h⟩ | ⟨_, p, _, ⟨_, h⟩ | ⟨_, m, s2, hc, h⟩⟩ := mbxRead_cases tb s <;> rw [h]
  · rfl
  · rfl
  · rfl
  · have hregs := congrArg State.regs (readChunks_frame
      (schedule (mailboxBlocks tb (blockByte p 0))) (tReadSram mbxHdrAddr 1 s).2)
    rw [hc] at hregs
    exact (congrArg Regs.lastErr hregs).trans hclean

theorem mbxWrite_reports (hclean : s.regs.lastErr = 0#4) : Reports silent (mbxWrite s) := by
  obtain ⟨_, h⟩ | ⟨_, _, ok1, s1, h1, ⟨_, h⟩ | ⟨_, ok2, s2, h2, ⟨_, h⟩ | ⟨_, h⟩⟩⟩ :=
    mbxWrite_cases s <;> rw [h]
  · rfl
  · rfl
  · rfl
  · obtain rfl := congrArg Prod.snd h1
    obtain rfl := congrArg Prod.snd h2
    exact hclean

/-! ### What a result shows in the response -/

/-- rsp_data of an operation's result: the value laid out on Ok, 0 on Fail. -/
def Result.data (layout : α → BitVec 32) : Result α → BitVec 32
  | .ok v => layout v
  | .fail _ => 0#32

theorem answer_eq_respondErr (layout : α → BitVec 32) (r : Result α) (s : State) :
    answer layout (r, s) = respondErr (r.data layout) s := by
  cases r <;> rfl

/-- The response shows status 0 and the layout of v exactly when the operation answered Ok(v). -/
theorem rsp_eq_ok_iff {layout : α → BitVec 32} (hinj : Function.Injective layout) {v : α}
    (hv : status v = 0#4) {r : Result α} (hr : s1.regs.lastErr = r.lastErr status) :
    (respondErr (r.data layout) s1).rsp = some { status := 0#4, data := layout v } ↔ r = .ok v := by
  rw [respondErr_rsp, hr]
  cases r with
  | ok w =>
    constructor
    · intro h
      obtain ⟨_, hdata⟩ := Response.mk.inj (Option.some.inj h)
      rw [hinj hdata]
    · intro h
      obtain rfl := Result.ok.inj h
      simp only [Result.lastErr, Result.data, hv]
  | fail k => simp [Result.lastErr]

theorem zeroExtend_injective {n m : Nat} (h : n ≤ m) :
    Function.Injective (fun v : BitVec n => v.zeroExtend m) := by
  intro v w hvw
  have hcut := congrArg (BitVec.setWidth n) hvw
  simpa [h] using hcut

theorem directionLayout_injective :
    Function.Injective (fun d : Direction => d.code.zeroExtend 32) := by
  have hcode : Function.Injective Direction.code := by
    intro d e h
    cases d <;> cases e <;> simp [Direction.code] at h ⊢
  exact (zeroExtend_injective (by decide)).comp hcode

/-- LAST_ERR is 0 exactly when a silent operation answered Ok. -/
theorem Result.lastErr_silent_eq_zero_iff (r : Result α) :
    r.lastErr silent = 0#4 ↔ ∃ v, r = .ok v := by
  cases r <;> simp [Result.lastErr, silent]

end Sys2Proof.Machine
end

section
/-! No operation of the block reads the response: each does the same with another one, and keeps it. So the
operations of a tick are the commands a host would give one after another. -/

open Sys2Proof.Claims

namespace Sys2Proof.Machine

/-- The state with another response. -/
def State.withRsp (q : Option Response) (s : State) : State := { s with rsp := q }

/-- An operation's result with another response. -/
def withRspResult {α : Type} (q : Option Response) (x : α × State) : α × State :=
  (x.1, x.2.withRsp q)

variable (q : Option Response)

theorem tReadConfig_withRsp (a : Byte) (s : State) :
    tReadConfig a (s.withRsp q) = withRspResult q (tReadConfig a s) := rfl

theorem tReadSram_withRsp (a : Byte) (n : Nat) (s : State) :
    tReadSram a n (s.withRsp q) = withRspResult q (tReadSram a n s) := rfl

theorem tWriteSram_withRsp (a : Byte) (d : List Byte) (s : State) :
    tWriteSram a d (s.withRsp q) = withRspResult q (tWriteSram a d s) := rfl

theorem readBlock_withRsp (a : Byte) (s : State) :
    readBlock a (s.withRsp q) = withRspResult q (readBlock a s) := by
  simp only [readBlock, tReadConfig_withRsp]
  split
  · rcases tReadConfig a s with ⟨_ | _, _⟩ <;> rfl
  · rfl

theorem readByte_withRsp (a : Byte) (off : Nat) (s : State) :
    readByte a off (s.withRsp q) = withRspResult q (readByte a off s) := by
  simp only [readByte, readBlock_withRsp]
  split
  · rfl
  · rcases readBlock a s with ⟨_ | _, _⟩ <;> rfl

theorem readField_withRsp (row : Option (Byte × Nat × Byte)) (s : State) :
    readField row (s.withRsp q) = withRspResult q (readField row s) := by
  rcases row with _ | ⟨a, off, m⟩
  · rfl
  · simp only [readField, readByte_withRsp]
    rcases readByte a off s with ⟨_ | _, _⟩ <;> rfl

theorem readNamed_withRsp (f : Field) (s : State) :
    readNamed f (s.withRsp q) = withRspResult q (readNamed f s) := readField_withRsp q _ s

theorem readChunks_withRsp (l : List (Byte × Nat)) (s : State) :
    readChunks l (s.withRsp q) = withRspResult q (readChunks l s) := by
  induction l generalizing s with
  | nil => rfl
  | cons p rest ih =>
    simp only [readChunks, tReadSram_withRsp, withRspResult, ih]
    split <;> rfl

theorem mbxRead_withRsp (tb : Byte) (s : State) :
    mbxRead tb (s.withRsp q) = withRspResult q (mbxRead tb s) := by
  simp only [mbxRead, tReadSram_withRsp]
  split
  · rfl
  · rcases tReadSram mbxHdrAddr 1 s with ⟨_ | p, s1⟩
    · rfl
    · simp only [withRspResult, readChunks_withRsp]
      split <;> rfl

theorem mbxWrite_withRsp (s : State) :
    mbxWrite (s.withRsp q) = withRspResult q (mbxWrite s) := by
  have hinp : (s.withRsp q).inp = s.inp := rfl
  simp only [mbxWrite, hinp, tWriteSram_withRsp]
  split
  · rfl
  · rcases tWriteSram mbxHdrAddr (s.inp.txData.toList.take (4 * s.inp.txNblk.toNat)) s with
      ⟨_ | _, s1⟩
    · rfl
    · simp only [withRspResult, tWriteSram_withRsp]
      rcases tWriteSram mbxTermAddr terminator s1 with ⟨_ | _, _⟩ <;> rfl

/-! ### A command, from the operation it begins with -/

variable {q} {s s1 s2 t : State} {k : Kind}

/-- A running block with nothing recorded since the command began. -/
abbrev Clean (s : State) : Prop := Running s ∧ s.regs.lastErr = 0#4

theorem setLastErr_clean (hs : Running s) : Clean (setLastErr 0#4 s) := ⟨hs, rfl⟩

/-- A command given in s does what its operation does in s1, but for the response it replaces. -/
structure Begins (s s1 : State) : Prop where
  running : Running s
  start : ∃ q, setLastErr 0#4 s = s1.withRsp q

theorem Begins.ofRunning (hs : Running s) : Begins s (setLastErr 0#4 s) := ⟨hs, s.rsp, rfl⟩

/-- The next command begins where the one before ended. -/
theorem Begins.ofClean (h : Clean s1) (d : BitVec 32) : Begins (respondErr d s1) s1 := by
  obtain ⟨hrun, herr⟩ := h
  refine ⟨hrun, (respondErr d s1).rsp, ?_⟩
  have hself : setLastErr s1.regs.lastErr (respondErr d s1) = s1.withRsp (respondErr d s1).rsp := rfl
  rw [← hself, herr]

theorem Begins.exec_readRegisterBit (hb : Begins s s1) {f : Field} {r : Result Byte}
    (h : readNamed f s1 = (r, s2)) :
    exec (.readRegisterBit f.id) s = .next (respondErr (r.data fun v => v.zeroExtend 32) s2) := by
  obtain ⟨⟨hrun, hhang⟩, q, hstart⟩ := hb
  have hop : readRegisterBit f.id (setLastErr 0#4 s) = (r, s2.withRsp q) := by
    rw [hstart]
    exact (readNamed_withRsp q f s1).trans (congrArg (withRspResult q) h)
  dsimp only [exec, execReadRegisterBit]
  rw [command_of_running hrun hhang, hop, answer_eq_respondErr]
  rfl

theorem Begins.exec_mbxRead_fail (hb : Begins s s1) {tb : Byte} (h : mbxRead tb s1 = (.fail k, s2)) :
    exec (.mbxRead tb) s = .next (respondErr 0#32 s2) := by
  obtain ⟨hs, q, hstart⟩ := hb
  exact exec_mbxRead_of_fail (t := s2.withRsp q) hs (by rw [hstart, mbxRead_withRsp, h]; rfl)

theorem Begins.exec_mbxRead_ok (hb : Begins s s1) {tb : Byte} {m : MailboxPayload}
    (h : mbxRead tb s1 = (.ok m, s2)) :
    exec (.mbxRead tb) s =
      .next (respondErr (mbxData s2.regs.rxLen s2.regs.rxComplete s2.regs.rxHdr) s2) := by
  obtain ⟨hs, q, hstart⟩ := hb
  exact exec_mbxRead_of_ok (t := s2.withRsp q) hs (by rw [hstart, mbxRead_withRsp, h]; rfl)

theorem Begins.exec_mbxWrite (hb : Begins s s1) {r : Result Unit} (h : mbxWrite s1 = (r, s2)) :
    exec .mbxWrite s = .next (respondErr (r.data fun _ => 0#32) s2) := by
  obtain ⟨hs, q, hstart⟩ := hb
  rw [Machine.exec_mbxWrite hs, hstart, mbxWrite_withRsp, h, withRspResult, answer_eq_respondErr]
  rfl

theorem exec_dataDirection_of_result (hs : Running s) {r : Result Direction}
    (h : dataDirection (setLastErr 0#4 s) = (r, s1)) :
    exec .dataDirection s = .next (respondErr (r.data fun d => d.code.zeroExtend 32) s1) := by
  rw [exec_dataDirection hs, h, answer_eq_respondErr]

/-- What runs after an operation that recorded nothing runs in a clean state again. -/
theorem Effect.clean (h : Effect maskCommand s t) (hs : Clean s) (herr : t.regs.lastErr = 0#4) :
    Clean t := by
  obtain ⟨⟨hrun, hhang⟩, _⟩ := hs
  have hhalt := congrArg Regs.halt h.regs
  exact ⟨⟨hhalt.trans hrun, h.hangAt.trans hhang⟩, herr⟩

end Sys2Proof.Machine
end

section
/-! The ticks of a running block as the commands they are made of (44_arbiter_fsm.md R193 to R196): one equation
per branch of each handler, and what a tick does behind a handler that stays or leaves. -/

open Sys2Proof.Claims

namespace Sys2Proof.Machine

variable {s s1 s2 t : State} {k : Kind} {i : Instr} {c next : BitVec 3}

/-! ### The branches of the handlers -/

theorem hTriggerEnergyHarvest_leaves (h : readNamed .ehLoadOk s = (.ok 0x80#8, s1)) :
    hTriggerEnergyHarvest s = (stWaitI2cToNfc, s1) := by
  simp only [hTriggerEnergyHarvest, h, if_pos]

theorem hTriggerEnergyHarvest_stays {r : Result Byte} (h : readNamed .ehLoadOk s = (r, s1))
    (hr : r ≠ .ok 0x80#8) : hTriggerEnergyHarvest s = (stTriggerEnergyHarvest, s1) := by
  cases r with
  | ok v =>
    have hv : v ≠ 0x80#8 := fun hv => hr (congrArg Result.ok hv)
    simp only [hTriggerEnergyHarvest, h, if_neg hv]
  | fail k => simp only [hTriggerEnergyHarvest, h]

theorem waitPoll_wrongDirection {r : Result Direction} (h : dataDirection s = (r, s1))
    (hr : r ≠ .ok .i2cNfc) : waitPoll s = (stWaitI2cToNfc, s1) := by
  cases r with
  | ok d =>
    have hd : d ≠ .i2cNfc := fun hd => hr (congrArg Result.ok hd)
    simp only [waitPoll, h, if_neg hd]
  | fail k => simp only [waitPoll, h]

theorem waitPoll_notReady {r : Result Byte} (h1 : dataDirection s = (.ok .i2cNfc, s1))
    (h2 : readNamed .sramDataRdy s1 = (r, s2)) (hr : r ≠ .ok 0x20#8) :
    waitPoll s = (stWaitI2cToNfc, s2) := by
  cases r with
  | ok v =>
    have hv : v ≠ 0x20#8 := fun hv => hr (congrArg Result.ok hv)
    simp only [waitPoll, h1, if_true, h2, if_neg hv]
  | fail k => simp only [waitPoll, h1, if_true, h2]

theorem waitPoll_ready (h1 : dataDirection s = (.ok .i2cNfc, s1))
    (h2 : readNamed .sramDataRdy s1 = (.ok 0x20#8, s2)) : waitPoll s = waitReadMailbox s2 := by
  simp only [waitPoll, h1, if_true, h2]

theorem waitReadMailbox_fail (h : mbxRead 0#8 s = (.fail k, s1)) :
    waitReadMailbox s = (stWaitI2cToNfc, s1) := by simp only [waitReadMailbox, h]

theorem waitReadMailbox_incomplete {m : MailboxPayload} (h : mbxRead 0#8 s = (.ok m, s1))
    (hm : m.complete = false) : waitReadMailbox s = (stWaitI2cToNfc, record .readError s1) := by
  simp only [waitReadMailbox, h, hm, Bool.false_eq_true, if_false]

/-- The field is one bit, so that its masked value is 0x20 or 0 (R40). -/
theorem readNamed_sramDataRdy_values {v : Byte} (h : readNamed .sramDataRdy s = (.ok v, s1)) :
    v = 0x20#8 ∨ v = 0#8 := by
  have hmask : ∀ b : Byte, b &&& 0x20#8 = 0x20#8 ∨ b &&& 0x20#8 = 0#8 := by decide
  have hread : readNamed .sramDataRdy s = readField (some (0xA0#8, 0, 0x20#8)) s := rfl
  rw [hread, readField] at h
  rcases hb : readByte 0xA0#8 0 s with ⟨b | e, u⟩ <;> rw [hb] at h
  · cases h
    exact hmask b
  · cases h

theorem waitReadMailbox_drained {m : MailboxPayload} (h1 : mbxRead 0#8 s = (.ok m, s1))
    (hm : m.complete = true) (h2 : readNamed .sramDataRdy s1 = (.ok 0#8, s2)) :
    waitReadMailbox s = (stWaitNfcToI2c, s2) := by
  have hne : ¬(0#8 = 0x20#8) := by decide
  simp only [waitReadMailbox, h1, if_pos hm, h2, if_neg hne]

theorem waitReadMailbox_refilled {m : MailboxPayload} {r : Result Byte}
    (h1 : mbxRead 0#8 s = (.ok m, s1)) (hm : m.complete = true)
    (h2 : readNamed .sramDataRdy s1 = (r, s2)) (hr : r ≠ .ok 0#8) :
    waitReadMailbox s = (stWaitI2cToNfc, s2) := by
  cases r with
  | ok v =>
    obtain rfl | rfl := readNamed_sramDataRdy_values h2
    · simp only [waitReadMailbox, h1, if_pos hm, h2, if_true]
    · exact absurd rfl hr
  | fail k => simp only [waitReadMailbox, h1, if_pos hm, h2]

theorem hWaitNfcToI2c_wrongDirection {r : Result Direction} (h : dataDirection s = (r, s1))
    (hr : r ≠ .ok .nfcI2c) : hWaitNfcToI2c s = (stWaitNfcToI2c, s1) := by
  cases r with
  | ok d =>
    have hd : d ≠ .nfcI2c := fun hd => hr (congrArg Result.ok hd)
    simp only [hWaitNfcToI2c, h, if_neg hd]
  | fail k => simp only [hWaitNfcToI2c, h]

theorem hWaitNfcToI2c_notWritten (h1 : dataDirection s = (.ok .nfcI2c, s1))
    (h2 : mbxWrite s1 = (.fail k, s2)) : hWaitNfcToI2c s = (stWaitNfcToI2c, s2) := by
  simp only [hWaitNfcToI2c, h1, if_true, h2]

theorem hWaitNfcToI2c_written (h1 : dataDirection s = (.ok .nfcI2c, s1))
    (h2 : mbxWrite s1 = (.ok (), s2)) : hWaitNfcToI2c s = (stWaitI2cToNfc, s2) := by
  simp only [hWaitNfcToI2c, h1, if_true, h2]

/-! ### The tick behind its handler -/

theorem reloadWatchdog_same (cur : BitVec 3) (now : BitVec 32) (s : State) :
    reloadWatchdog cur cur now s = s := if_neg fun h => h.1 rfl

/-- A tick whose handler stays changes nothing more but the response. -/
theorem exec_tick_stays (hs : Running s) (hc : s.regs.state = c) (hi : i ∈ [.tick, decodeState c])
    (hx : runHandler (handlerOf c) s.inp.now (setLastErr 0#4 s) = (c, s1))
    (heff : Effect maskCommand (setLastErr 0#4 s) s1) :
    exec i s = .next (respondErr (tickData c false) s1) := by
  have hstate : s1.regs.state = c := (congrArg Regs.state heff.regs).trans hc
  have hhalt : s1.regs.halt = false := (congrArg Regs.halt heff.regs).trans hs.1
  have hself : setState c s1 = s1 := by rw [← hstate]; rfl
  rw [exec_tick_or_row hs hc i hi, tickBody, setLastErr_inp, hx]
  simp only [setLastErr_regs, hc, reloadWatchdog_same, hself, hhalt, hstate]

/-- s1 after a tick of s that leaves for `next` from a state other than Init (R199). -/
def leaveFor (next : BitVec 3) (s s1 : State) : State :=
  { s1 with
    regs := { s1.regs with
      state := next
      wdgT0 := if s.cfg.wdgReloadOnTransition then s.inp.now else s.regs.wdgT0 } }

theorem exec_tick_leaves (hs : Running s) (hc : s.regs.state = c) (hi : i ∈ [.tick, decodeState c])
    (hx : runHandler (handlerOf c) s.inp.now (setLastErr 0#4 s) = (next, s1))
    (heff : Effect maskCommand (setLastErr 0#4 s) s1) (hinit : c ≠ stInit) (hne : next ≠ c)
    (hnf : next ≠ stFatal) :
    exec i s = .next (respondErr (tickData next false) (leaveFor next s s1)) := by
  have hhalt : s1.regs.halt = false := (congrArg Regs.halt heff.regs).trans hs.1
  have hwdg : s1.regs.wdgT0 = s.regs.wdgT0 := heff.wdgT0_eq
  have hcfg : s1.cfg = s.cfg := heff.cfg
  have hcond : next ≠ c ∧ next ≠ stFatal ∧ (c = stInit ∨ s1.cfg.wdgReloadOnTransition = true) ↔
      s.cfg.wdgReloadOnTransition = true := by simp [hcfg, hne, hnf, hinit]
  have hleave : setState next (reloadWatchdog c next s.inp.now s1) = leaveFor next s s1 := by
    by_cases hw : s.cfg.wdgReloadOnTransition = true
    · rw [reloadWatchdog, if_pos (hcond.mpr hw), leaveFor, if_pos hw]
      rfl
    · rw [reloadWatchdog, if_neg (mt hcond.mp hw), leaveFor, if_neg hw, ← hwdg]
      rfl
  have hhalt' : (leaveFor next s s1).regs.halt = false := hhalt
  rw [exec_tick_or_row hs hc i hi, tickBody, setLastErr_inp, hx]
  simp only [setLastErr_regs, hc, hleave, hhalt']
  rfl

end Sys2Proof.Machine
end

section
/-! The statements about the ticks of the four handlers that leave the block running (44_arbiter_fsm.md R193 to
R196). -/

open Sys2Proof.Claims

namespace Sys2Proof.Machine

variable {s s1 : State} {i : Instr}

/-! ### Init (R193) -/

theorem hInit_fail {k : Kind} (h : establish s = (.fail k, s1)) (now : BitVec 32) :
    hInit now s = (stInit, s1) := by simp only [hInit, h]

theorem hInit_ok (h : establish s = (.ok (), s1)) (now : BitVec 32) :
    hInit now s =
      (if s.inp.ehBootstrapEn then stTriggerEnergyHarvest else stWaitI2cToNfc, setWdgT0 now s1) := by
  simp only [hInit, h]

theorem establish_reports (hclean : s.regs.lastErr = 0#4) : Reports silent (establish s) := by
  obtain ⟨k, s1, _, h⟩ | ⟨s1, h, herr, _⟩ := establish_outcomes s <;> rw [h]
  · rfl
  · exact herr.trans hclean

/-- A tick that leaves Init loads the watchdog, whatever WDG_RELOAD_ON_TRANSITION says (R199). -/
theorem tickBody_init_leaves {next : BitVec 3} (hstate : s.regs.state = stInit)
    (hx : runHandler .init s.inp.now s = (next, setWdgT0 s.inp.now s1)) (hne : next ≠ stInit)
    (hnf : next ≠ stFatal) (hrun : s1.regs.halt = false) :
    tickBody .init s =
      respondErr (tickData next false) { s1 with
        regs := { s1.regs with state := next, wdgT0 := s.inp.now } } := by
  have hreload : reloadWatchdog stInit next s.inp.now (setWdgT0 s.inp.now s1) =
      setWdgT0 s.inp.now (setWdgT0 s.inp.now s1) := if_pos ⟨hne, hnf, .inl rfl⟩
  rw [tickBody, hx]
  simp only [hstate, hreload]
  exact congrArg
    (fun b => respondErr (tickData next b) (setState next (setWdgT0 s.inp.now s1))) hrun

theorem exec_tick_established (hs : Running s) (hstate : s.regs.state = 0#3)
    (hi : i ∈ [Instr.tick, .hInit]) (h : establish (setLastErr 0#4 s) = (.ok (), s1)) :
    exec i s = .next (respondErr (if s.inp.ehBootstrapEn then 1#32 else 2#32) { s1 with
      regs := { s1.regs with
        state := if s.inp.ehBootstrapEn then 1#3 else 2#3
        wdgT0 := s.inp.now } }) := by
  have hrun : s1.regs.halt = false :=
    (congrArg Regs.halt ((establish_effect (setLastErr 0#4 s)).of h).regs).trans hs.1
  have htick : exec i s = .next (tickBody .init (setLastErr 0#4 s)) :=
    exec_tick_or_row hs hstate i hi
  have hx := hInit_ok h s.inp.now
  rw [setLastErr_inp] at hx
  rw [htick]
  cases hen : s.inp.ehBootstrapEn <;> rw [hen] at hx
  · rw [tickBody_init_leaves (s := setLastErr 0#4 s) hstate hx (by decide) (by decide) hrun]
    rfl
  · rw [tickBody_init_leaves (s := setLastErr 0#4 s) hstate hx (by decide) (by decide) hrun]
    rfl

theorem exec_establish_of_result (hs : Running s) {r : Result Unit}
    (h : establish (setLastErr 0#4 s) = (r, s1)) : ∃ d, exec .establish s = .next (respondErr d s1) := by
  rw [exec_establish hs, h]
  cases r <;> exact ⟨_, rfl⟩

/-- Settles O28: ESTABLISH answers LAST_ERR = 0 exactly on Ok, and its two results are the two branches of the
handler. -/
theorem initTickEstablishes : Obligations.InitTickEstablishes := by
  intro s hs hstate i hi
  rcases h : establish (setLastErr 0#4 s) with ⟨_ | k, s1⟩
  · obtain ⟨d, hcmd⟩ := exec_establish_of_result hs h
    have hlast : s1.regs.lastErr = 0#4 := (establish_reports rfl).of h
    refine ⟨_, hcmd, fun herr => absurd hlast herr, fun _ => ?_⟩
    rw [exec_tick_established hs hstate hi h, ← hlast]
    rfl
  · obtain ⟨d, hcmd⟩ := exec_establish_of_result hs h
    have hlast : s1.regs.lastErr = k.code := (establish_reports rfl).of h
    have htick := exec_tick_stays hs hstate hi (hInit_fail h s.inp.now)
      ((establish_effect _).of h).command_of_session
    exact ⟨_, hcmd, fun _ => htick, fun herr => absurd (hlast.symm.trans herr) k.code_ne_zero⟩

/-! ### TriggerEnergyHarvest (R194) -/

/-- Settles O29: the response shows 0x80 exactly when the handler reads it, and then the handler leaves. -/
theorem triggerTickReadsLoadOk : Obligations.TriggerTickReadsLoadOk := by
  intro s hs hstate i hi
  rcases h : readNamed .ehLoadOk (setLastErr 0#4 s) with ⟨r, s1⟩
  have hlast := (readNamed_reports .ehLoadOk rfl).of h
  have heff := ((readNamed_effect .ehLoadOk _).of h).command_of_blk
  have hrsp := rsp_eq_ok_iff (zeroExtend_injective (by decide)) (v := 0x80#8) rfl hlast
  refine ⟨_, (Begins.ofRunning hs).exec_readRegisterBit h, fun hyes => ?leaves, fun hno => ?stays⟩
  case leaves =>
    obtain rfl := hrsp.mp hyes
    have hzero : s1.regs.lastErr = 0#4 := hlast
    rw [exec_tick_leaves hs hstate hi (hTriggerEnergyHarvest_leaves h) heff (by decide) (by decide)
      (by decide), ← hzero]
    rfl
  case stays =>
    have htick := exec_tick_stays hs hstate hi (hTriggerEnergyHarvest_stays h (mt hrsp.mpr hno)) heff
    exact htick

/-- The response of DATA_DIRECTION shows a known direction exactly when the operation answered it. -/
theorem dataDirection_rsp_iff {r : Result Direction} {d : Direction} (hd : d ≠ .unknown)
    (h : dataDirection (setLastErr 0#4 s) = (r, s1)) :
    (respondErr (r.data fun d => d.code.zeroExtend 32) s1).rsp =
      some { status := 0#4, data := d.code.zeroExtend 32 } ↔ r = .ok d :=
  rsp_eq_ok_iff directionLayout_injective (if_neg (mt Direction.code_eq_zero_iff.mp hd))
    ((dataDirection_reports rfl).of h)

/-! ### WaitI2cToNfc (R195) -/

theorem hWaitI2cToNfc_inTime (hearly : (s.inp.now - s.regs.wdgT0).toNat ≤ 5000) :
    runHandler .waitI2cToNfc s.inp.now s = waitPoll s := by
  have hintime : ¬timedOut s.inp.now s.regs.wdgT0 = true := by
    rw [timedOut, decide_eq_true_eq]
    exact Nat.not_lt.mpr hearly
  exact if_neg hintime

/-- RX_COMPLETE says whether a mailbox read that answered Ok was whole (R162). -/
theorem mbxRead_rxComplete {tb : Byte} {m : MailboxPayload} (h : mbxRead tb s = (.ok m, s1)) :
    s1.regs.rxComplete = m.complete := by
  obtain ⟨_, hx⟩ | ⟨_, _, hx⟩ | ⟨_, p, _, ⟨_, hx⟩ | ⟨_, m', s2, _, hx⟩⟩ := mbxRead_cases tb s <;>
    cases h.symm.trans hx
  rfl

/-- Settles O31: each command is the next read of the handler, begun where the one before ended, and what the
responses show is what the handler tests. -/
theorem waitI2cToNfcTickComposes : Obligations.WaitI2cToNfcTickComposes := by
  intro s hs hstate hearly i hi stays
  have hhandler : runHandler .waitI2cToNfc s.inp.now (setLastErr 0#4 s) = waitPoll (setLastErr 0#4 s) :=
    hWaitI2cToNfc_inTime (s := setLastErr 0#4 s) hearly
  have hstays {u : State} (h : waitPoll (setLastErr 0#4 s) = (2#3, u)) :
      exec i s = .next (respondErr 2#32 u) :=
    exec_tick_stays hs hstate hi (hhandler.trans h) ((waitPoll_effect _).of h).command_of_poll
  -- Step 2 of R195: DATA_DIRECTION.
  rcases h1 : dataDirection (setLastErr 0#4 s) with ⟨r1, s1⟩
  have hrsp1 := dataDirection_rsp_iff (d := .i2cNfc) (by decide) h1
  refine ⟨_, exec_dataDirection_of_result hs h1,
    fun hno => (hstays (waitPoll_wrongDirection h1 (mt hrsp1.mpr hno)) :), fun hyes => ?_⟩
  obtain rfl := hrsp1.mp hyes
  have hclean1 := ((dataDirection_effect _).of h1).poll_of_direction.command_of_poll.clean
    (setLastErr_clean hs) ((dataDirection_reports rfl).of h1)
  -- Step 3: the ready flag.
  rcases h2 : readNamed .sramDataRdy s1 with ⟨r2, s2⟩
  have hlast2 := (readNamed_reports .sramDataRdy hclean1.2).of h2
  have hrsp2 := rsp_eq_ok_iff (zeroExtend_injective (by decide)) (v := 0x20#8) rfl hlast2
  refine ⟨_, (Begins.ofClean hclean1 _).exec_readRegisterBit h2,
    fun hno => (hstays (waitPoll_notReady h1 h2 (mt hrsp2.mpr hno)) :), fun hyes => ?_⟩
  obtain rfl := hrsp2.mp hyes
  have hclean2 := ((readNamed_effect _ s1).of h2).command_of_blk.clean hclean1 hlast2
  have hmailbox := waitPoll_ready h1 h2
  -- Step 4: the mailbox.
  rcases h3 : mbxRead 0#8 s2 with ⟨m | k, s3⟩
  case fail =>
    have hlast3 : s3.regs.lastErr = k.code := (mbxRead_reports 0#8 hclean2.2).of h3
    have hne : s3.regs.lastErr ≠ 0#4 := by rw [hlast3]; exact k.code_ne_zero
    exact ⟨_, (Begins.ofClean hclean2 _).exec_mbxRead_fail h3,
      fun _ => (hstays (hmailbox.trans (waitReadMailbox_fail h3)) :), fun hok => absurd hok hne,
      fun hok => absurd hok hne⟩
  have hlast3 : s3.regs.lastErr = 0#4 := (mbxRead_reports 0#8 hclean2.2).of h3
  have hrx := mbxRead_rxComplete h3
  refine ⟨_, (Begins.ofClean hclean2 _).exec_mbxRead_ok h3, fun herr => absurd hlast3 herr,
    fun _ hpart => (hstays (hmailbox.trans
      (waitReadMailbox_incomplete h3 (hrx.symm.trans hpart))) :),
    fun _ hwhole => ?_⟩
  have hclean3 := ((mbxRead_effect _ s2).of h3).poll_of_rx.command_of_poll.clean hclean2 hlast3
  have hcomplete := hrx.symm.trans hwhole
  -- Step 5: a fresh read of the ready flag (R256); step 6 leaves.
  rcases h4 : readNamed .sramDataRdy s3 with ⟨r4, s4⟩
  have hlast4 := (readNamed_reports .sramDataRdy hclean3.2).of h4
  have hrsp4 := rsp_eq_ok_iff (zeroExtend_injective (by decide)) (v := 0#8) rfl hlast4
  refine ⟨_, (Begins.ofClean hclean3 _).exec_readRegisterBit h4,
    fun hno => (hstays (hmailbox.trans
      (waitReadMailbox_refilled h3 hcomplete h4 (mt hrsp4.mpr hno))) :), fun hyes => ?_⟩
  obtain rfl := hrsp4.mp hyes
  have hdrained := hmailbox.trans (waitReadMailbox_drained h3 hcomplete h4)
  have hzero : s4.regs.lastErr = 0#4 := hlast4
  rw [exec_tick_leaves hs hstate hi (hhandler.trans hdrained)
    ((waitPoll_effect _).of hdrained).command_of_poll (by decide) (by decide) (by decide), ← hzero]
  rfl

/-! ### WaitNfcToI2c (R196) -/

/-- Settles O32: the write is made behind direction NFC_I2C alone, and the handler leaves on its Ok. -/
theorem waitNfcToI2cTickComposes : Obligations.WaitNfcToI2cTickComposes := by
  intro s hs hstate i hi stays
  rcases h1 : dataDirection (setLastErr 0#4 s) with ⟨r1, s1⟩
  have hrsp1 := dataDirection_rsp_iff (d := .nfcI2c) (by decide) h1
  have heff1 := ((dataDirection_effect _).of h1).poll_of_direction.command_of_poll
  refine ⟨_, exec_dataDirection_of_result hs h1, fun hno => ?direction, fun hyes => ?write⟩
  case direction =>
    have htick :=
      exec_tick_stays hs hstate hi (hWaitNfcToI2c_wrongDirection h1 (mt hrsp1.mpr hno)) heff1
    exact htick
  obtain rfl := hrsp1.mp hyes
  have hclean1 := heff1.clean (setLastErr_clean hs) ((dataDirection_reports rfl).of h1)
  rcases h2 : mbxWrite s1 with ⟨r2, s2⟩
  have hlast2 := (mbxWrite_reports hclean1.2).of h2
  have heff2 := heff1.trans ((mbxWrite_effect s1).of h2).command_of_id
  refine ⟨_, (Begins.ofClean hclean1 _).exec_mbxWrite h2, fun herr => ?notWritten, fun hok => ?written⟩
  case notWritten =>
    cases r2 with
    | ok v => exact absurd hlast2 herr
    | fail k =>
      have htick := exec_tick_stays hs hstate hi (hWaitNfcToI2c_notWritten h1 h2) heff2
      exact htick
  case written =>
    obtain ⟨v, rfl⟩ := (Result.lastErr_silent_eq_zero_iff r2).mp (hlast2.symm.trans hok)
    have hzero : s2.regs.lastErr = 0#4 := hlast2
    rw [exec_tick_leaves hs hstate hi (hWaitNfcToI2c_written h1 h2) heff2 (by decide) (by decide)
      (by decide), ← hzero]
    rfl

end Sys2Proof.Machine
end

section
/-! How an operation's result shows on the LOG port (60_exceptions.md R225, R232): every operation of a tick
records at most one kind, the one its result names. -/

namespace Sys2Proof.Machine

variable {α : Type} {s t u : State} {o : Option Kind} {noted : α → Option Kind}

/-! ### The relation -/

/-- t comes after s with the kind o recorded, or with nothing recorded. -/
def Records (o : Option Kind) (s t : State) : Prop := t.log = s.log ++ o.toList

theorem Records.ofLog (h : t.log = s.log) : Records none s t := h.trans (List.append_nil _).symm

theorem Records.after (h : Records none s t) (k : Records o t u) : Records o s u := by
  have hlog : t.log = s.log := h.trans (List.append_nil _)
  rw [Records, ← hlog]
  exact k

/-- The kind an operation that answers r records: its own on Fail, `noted` of the value on Ok. -/
def Result.recorded (noted : α → Option Kind) : Result α → Option Kind
  | .ok v => noted v
  | .fail k => some k

/-- Nothing is recorded on Ok. -/
def unnoted (_ : α) : Option Kind := none

/-- The operation, begun in s, recorded what its result says and nothing else. -/
def RecordsResult (noted : α → Option Kind) (s : State) (x : Result α × State) : Prop :=
  Records (x.1.recorded noted) s x.2

theorem RecordsResult.of {x : Result α × State} {r : Result α} (h : RecordsResult noted s x)
    (hx : x = (r, t)) : Records (r.recorded noted) s t := by rw [hx] at h; exact h

theorem RecordsResult.after {x : Result α × State} (h : Records none s t)
    (k : RecordsResult noted t x) : RecordsResult noted s x := Records.after h k

/-! ### The operations -/

theorem readBlock_recordsResult (a : Byte) (s : State) :
    RecordsResult unnoted s (readBlock a s) := by
  obtain ⟨_, h⟩ | ⟨_, _, h⟩ | ⟨_, b, _, _, h⟩ := readBlock_cases a s <;> rw [h]
  · rfl
  · rfl
  · exact .ofLog rfl

theorem readByte_recordsResult (a : Byte) (off : Nat) (s : State) :
    RecordsResult unnoted s (readByte a off s) := by
  have hblock := readBlock_recordsResult a s
  obtain ⟨_, h⟩ | ⟨_, e, s1, hb, h⟩ | ⟨_, b, s1, hb, h⟩ := readByte_cases a off s <;> rw [h]
  · rfl
  · exact hblock.of hb
  · exact hblock.of hb

theorem readNamed_recordsResult (f : Field) (s : State) :
    RecordsResult unnoted s (readNamed f s) := by
  obtain ⟨_, h⟩ | ⟨a, off, m, _, ⟨e, s1, hb, h⟩ | ⟨v, s1, hb, h⟩⟩ :=
    readField_cases (fieldReg s.cfg f.id) s <;> rw [readNamed, readRegisterBit, h]
  · rfl
  · exact (readByte_recordsResult a off s).of hb
  · have hquiet : Records none s s1 := (readByte_recordsResult a off s).of hb
    exact hquiet

/-- DATA_DIRECTION answers Unknown as Ok and records it (R191). -/
def directionNoted (d : Direction) : Option Kind :=
  if d = .unknown then some .invalidConfiguration else none

theorem finishDirection_recordsResult (d : Direction) (s : State) :
    RecordsResult directionNoted s (finishDirection d s) := by
  cases d with
  | unknown => rfl
  | i2cNfc | nfcI2c | locked => exact .ofLog rfl

theorem dataDirection_recordsResult (s : State) :
    RecordsResult directionNoted s (dataDirection s) := by
  obtain ⟨k, s1, h1, h⟩ | ⟨pt, s1, h1, hrest⟩ := dataDirection_cases s
  · rw [h]; exact (readNamed_recordsResult _ s).of h1
  have e1 : Records none s s1 := (readNamed_recordsResult _ s).of h1
  obtain ⟨k, s2, h2, h⟩ | ⟨ed, s2, h2, hrest⟩ := hrest
  · rw [h]; exact e1.after ((readNamed_recordsResult _ s1).of h2)
  have e2 : Records none s s2 := e1.after ((readNamed_recordsResult _ s1).of h2)
  obtain ⟨_, h⟩ | ⟨_, ⟨k, s3, h3, h⟩ | ⟨v, s3, h3, h⟩⟩ := hrest <;> rw [h]
  · exact .after e2 (finishDirection_recordsResult _ s2)
  · exact e2.after ((readByte_recordsResult _ _ s2).of h3)
  · have e3 : Records none s s3 := e2.after ((readByte_recordsResult _ _ s2).of h3)
    exact .after e3 (finishDirection_recordsResult _ s3)

/-- The chunk reads of a mailbox read record nothing, whole or not (R162). -/
theorem mbxRead_recordsResult (tb : Byte) (s : State) : RecordsResult unnoted s (mbxRead tb s) := by
  obtain ⟨_, h⟩ | ⟨_, _, h⟩ | ⟨_, p, _, ⟨_, h⟩ | ⟨_, m, s2, hc, h⟩⟩ := mbxRead_cases tb s <;> rw [h]
  · rfl
  · rfl
  · rfl
  · have hlog := congrArg State.log (readChunks_frame
      (schedule (mailboxBlocks tb (blockByte p 0))) (tReadSram mbxHdrAddr 1 s).2)
    rw [hc] at hlog
    exact .ofLog hlog

theorem mbxWrite_recordsResult (s : State) : RecordsResult unnoted s (mbxWrite s) := by
  obtain ⟨_, h⟩ | ⟨_, _, ok1, s1, h1, ⟨_, h⟩ | ⟨_, ok2, s2, h2, ⟨_, h⟩ | ⟨_, h⟩⟩⟩ :=
    mbxWrite_cases s <;> rw [h]
  · rfl
  · obtain rfl := congrArg Prod.snd h1
    rfl
  · obtain rfl := congrArg Prod.snd h1
    obtain rfl := congrArg Prod.snd h2
    rfl
  · obtain rfl := congrArg Prod.snd h1
    obtain rfl := congrArg Prod.snd h2
    exact .ofLog rfl

theorem discover_recordsResult (s : State) : RecordsResult unnoted s (discover s) := by
  obtain ⟨_, h⟩ | ⟨u, _, _, _, h⟩ := discover_cases s <;> rw [h]
  · rfl
  · exact .ofLog rfl

theorem select_recordsResult (s : State) : RecordsResult unnoted s (select s) := by
  obtain ⟨_, h⟩ | ⟨_, _, h⟩ | ⟨_, _, h⟩ := select_cases s <;> rw [h]
  · rfl
  · exact .ofLog rfl
  · rfl

theorem establish_recordsResult (s : State) : RecordsResult unnoted s (establish s) := by
  obtain ⟨k, s1, hd, h⟩ | ⟨s1, hd, h⟩ := establish_cases s <;> rw [h]
  · exact (discover_recordsResult s).of hd
  · exact .after ((discover_recordsResult s).of hd) (select_recordsResult s1)

end Sys2Proof.Machine
end

section
/-! A tick that records a kind does not advance (60_exceptions.md R225, 44_arbiter_fsm.md R190). -/

namespace Sys2Proof.Machine

variable {s s1 : State} {o : Option Kind} {own next : BitVec 3} {x : BitVec 3 × State}

/-! ### The relation -/

/-- The handler of STATE `own`, begun in s, recorded at most one kind, and after one it named its own STATE
again or halted the block. -/
def LeavesUnrecorded (own : BitVec 3) (s : State) (x : BitVec 3 × State) : Prop :=
  ∃ o : Option Kind, Records o s x.2 ∧ (o ≠ none → x.1 = own ∨ x.2.regs.halt = true)

theorem LeavesUnrecorded.stays (h : Records o s s1) : LeavesUnrecorded own s (own, s1) :=
  ⟨o, h, fun _ => .inl rfl⟩

theorem LeavesUnrecorded.leaves (h : Records none s s1) : LeavesUnrecorded own s (next, s1) :=
  ⟨none, h, fun hne => absurd rfl hne⟩

theorem LeavesUnrecorded.after (h : Records none s s1) (k : LeavesUnrecorded own s1 x) :
    LeavesUnrecorded own s x := by
  obtain ⟨o, hrec, hstays⟩ := k
  exact ⟨o, h.after hrec, hstays⟩

theorem takeHalt_leavesUnrecorded (k : Kind) (s : State) :
    LeavesUnrecorded own s (next, takeHalt k s) :=
  ⟨some k, takeHalt_log k s, fun _ => .inr (takeHalt_halt k s)⟩

/-! ### The handlers -/

theorem hInit_leavesUnrecorded (now : BitVec 32) (s : State) :
    LeavesUnrecorded stInit s (hInit now s) := by
  rcases h : establish s with ⟨⟨⟩ | k, s1⟩
  · have hquiet : Records none s s1 := (establish_recordsResult s).of h
    rw [hInit_ok h]
    exact .leaves (hquiet.after (.ofLog rfl))
  · rw [hInit_fail h]
    exact .stays ((establish_recordsResult s).of h)

theorem hTriggerEnergyHarvest_leavesUnrecorded (s : State) :
    LeavesUnrecorded stTriggerEnergyHarvest s (hTriggerEnergyHarvest s) := by
  rcases h : readNamed .ehLoadOk s with ⟨r, s1⟩
  have hrec := (readNamed_recordsResult _ s).of h
  by_cases hr : r = .ok 0x80#8
  · subst hr
    rw [hTriggerEnergyHarvest_leaves h]
    exact .leaves hrec
  · rw [hTriggerEnergyHarvest_stays h hr]
    exact .stays hrec

/-- An incomplete mailbox read answered Ok, so that ReadError is the one kind of its tick (R195). -/
theorem waitReadMailbox_leavesUnrecorded (s : State) :
    LeavesUnrecorded stWaitI2cToNfc s (waitReadMailbox s) := by
  rcases h1 : mbxRead 0#8 s with ⟨m | k, s1⟩
  case fail =>
    rw [waitReadMailbox_fail h1]
    exact .stays ((mbxRead_recordsResult _ s).of h1)
  have hquiet : Records none s s1 := (mbxRead_recordsResult _ s).of h1
  cases hm : m.complete with
  | false =>
    rw [waitReadMailbox_incomplete h1 hm]
    exact .after hquiet (.stays (o := some .readError) rfl)
  | true =>
    rcases h2 : readNamed .sramDataRdy s1 with ⟨r, s2⟩
    have hrec := (readNamed_recordsResult _ s1).of h2
    by_cases hr : r = .ok 0#8
    · subst hr
      rw [waitReadMailbox_drained h1 hm h2]
      exact .leaves (hquiet.after hrec)
    · rw [waitReadMailbox_refilled h1 hm h2 hr]
      exact .stays (hquiet.after hrec)

/-- Only a direction other than Unknown, behind which nothing is recorded yet, lets the handler go on. -/
theorem waitPoll_leavesUnrecorded (s : State) : LeavesUnrecorded stWaitI2cToNfc s (waitPoll s) := by
  rcases h1 : dataDirection s with ⟨r1, s1⟩
  have hrec1 := (dataDirection_recordsResult s).of h1
  by_cases hr1 : r1 = .ok .i2cNfc
  · subst hr1
    rcases h2 : readNamed .sramDataRdy s1 with ⟨r2, s2⟩
    have hrec2 := Records.after hrec1 ((readNamed_recordsResult _ s1).of h2)
    by_cases hr2 : r2 = .ok 0x20#8
    · subst hr2
      rw [waitPoll_ready h1 h2]
      exact .after hrec2 (waitReadMailbox_leavesUnrecorded s2)
    · rw [waitPoll_notReady h1 h2 hr2]
      exact .stays hrec2
  · rw [waitPoll_wrongDirection h1 hr1]
    exact .stays hrec1

theorem hWaitI2cToNfc_leavesUnrecorded (now : BitVec 32) (s : State) :
    LeavesUnrecorded stWaitI2cToNfc s (hWaitI2cToNfc now s) := by
  unfold hWaitI2cToNfc
  split
  · exact takeHalt_leavesUnrecorded .timeout s
  · exact waitPoll_leavesUnrecorded s

theorem hWaitNfcToI2c_leavesUnrecorded (s : State) :
    LeavesUnrecorded stWaitNfcToI2c s (hWaitNfcToI2c s) := by
  rcases h1 : dataDirection s with ⟨r1, s1⟩
  have hrec1 := (dataDirection_recordsResult s).of h1
  by_cases hr1 : r1 = .ok .nfcI2c
  · subst hr1
    rcases h2 : mbxWrite s1 with ⟨⟨⟩ | k, s2⟩
    · rw [hWaitNfcToI2c_written h1 h2]
      exact .leaves (Records.after hrec1 ((mbxWrite_recordsResult s1).of h2))
    · rw [hWaitNfcToI2c_notWritten h1 h2]
      exact .stays (Records.after hrec1 ((mbxWrite_recordsResult s1).of h2))
  · rw [hWaitNfcToI2c_wrongDirection h1 hr1]
    exact .stays hrec1

theorem runHandler_leavesUnrecorded (own : BitVec 3) (now : BitVec 32) (s : State) :
    LeavesUnrecorded own s (runHandler (handlerOf own) now s) := by
  unfold handlerOf
  split_ifs with hinit htrigger hi2c hnfc
  · subst hinit; exact hInit_leavesUnrecorded now s
  · subst htrigger; exact hTriggerEnergyHarvest_leavesUnrecorded s
  · subst hi2c; exact hWaitI2cToNfc_leavesUnrecorded now s
  · subst hnfc; exact hWaitNfcToI2c_leavesUnrecorded s
  · exact takeHalt_leavesUnrecorded .fatal s

/-! ### The tick -/

theorem reloadWatchdog_log (cur next : BitVec 3) (now : BitVec 32) (s : State) :
    (reloadWatchdog cur next now s).log = s.log := by
  unfold reloadWatchdog
  split <;> rfl

theorem tickBody_log (h : Handler) (s : State) :
    (tickBody h s).log = (runHandler h s.inp.now s).2.log :=
  reloadWatchdog_log s.regs.state (runHandler h s.inp.now s).1 s.inp.now _

theorem tickBody_leavesUnrecorded (s : State) :
    LeavesUnrecorded s.regs.state s
      ((tickBody (handlerOf s.regs.state) s).regs.state, tickBody (handlerOf s.regs.state) s) := by
  obtain ⟨o, hrec, hstays⟩ := runHandler_leavesUnrecorded s.regs.state s.inp.now s
  refine ⟨o, (tickBody_log _ s).trans hrec, fun hne => ?_⟩
  rw [tickBody_state, tickBody_halt]
  exact hstays hne

/-- Settles O41: a halted block records Fatal and stays; in a running one LAST_ERR follows the LOG, to which
the handler added at most one kind. -/
theorem tickRecordsAtMostOneKind : Obligations.TickRecordsAtMostOneKind := by
  intro s t h
  obtain ⟨_, rfl⟩ | ⟨hrun, rfl⟩ := command_next h
  · exact .inr ⟨.fatal, rfl, rfl, .inl rfl⟩
  obtain ⟨o, hrec, hstays⟩ := tickBody_leavesUnrecorded (setLastErr 0#4 s)
  obtain ⟨ks, hlog, herr⟩ :=
    (tickBody_effect (handlerOf s.regs.state) (setLastErr 0#4 s) hrun).recorded
  obtain rfl : ks = o.toList := List.append_cancel_left (hlog.symm.trans hrec)
  cases o with
  | none => exact .inl ⟨hlog.trans (List.append_nil _), herr⟩
  | some k => exact .inr ⟨k, hlog, herr, hstays (Option.some_ne_none k)⟩

end Sys2Proof.Machine
end

section
/-! Reset (70_reset_and_hazards.md R250, 10_state.md R43). -/

namespace Sys2Proof.Machine

/-- Settles O46: a reset event is `applyReset`, which gives the registers of `Regs.reset` and leaves the
transport alone; R43's values are read off `Regs.reset`. -/
theorem resetValues : Obligations.ResetValues :=
  ⟨fun _ _ hp => ⟨_, step_of_reset hp, rfl, rfl, rfl, rfl⟩,
    rfl, rfl, rfl, rfl, rfl, rfl, rfl, rfl, rfl⟩

end Sys2Proof.Machine
end

section
/-! The discipline of the history of calls (70_reset_and_hazards.md R253, R254): which call may follow a
history, and that each operation makes only such calls. -/

namespace Sys2Proof.Machine

variable {c : Cfg} {h : List Call} {s t u : State}

/-! ### One call more -/

/-- The history ends with a payload write that returned a frame. -/
def PayloadWritten (c : Cfg) (h : List Call) : Prop :=
  ∃ h' fl p f fs, h = h' ++ [Call.issue fl c.ccWriteSram (0x00#8 :: p) (.frames (f :: fs))]

/-- The call may come next: if it reads the SRAM it asks for at most 15 blocks, and if it writes the
terminator block the payload has just been written. -/
def MayFollow (c : Cfg) (h : List Call) (x : Call) : Prop :=
  SramReadsBounded c [x] ∧
    ∀ fl p r, x = .issue fl c.ccWriteSram (0x3F#8 :: p) r → PayloadWritten c h

theorem disciplinedHistory_concat {x : Call} (hd : DisciplinedHistory c h) (hx : MayFollow c h x) :
    DisciplinedHistory c (h ++ [x]) := by
  obtain ⟨hreads, hterms⟩ := hd
  obtain ⟨hread, hterm⟩ := hx
  refine ⟨fun fl p r hmem => ?reads, fun before fl p r after heq => ?terminators⟩
  case reads =>
    obtain hold | hnew := List.mem_append.mp hmem
    · exact hreads fl p r hold
    · exact hread fl p r hnew
  case terminators =>
    obtain rfl | ⟨after, y, rfl⟩ := List.eq_nil_or_concat' after
    · obtain ⟨rfl, hlast⟩ := List.append_inj' heq rfl
      exact hterm fl p r (List.singleton_inj.mp hlast)
    · rw [← List.cons_append, ← List.append_assoc] at heq
      obtain ⟨hold, _⟩ := List.append_inj' heq rfl
      exact hterms before fl p r after hold

theorem mayFollow_inventory (c : Cfg) (h : List Call) (r : InvAnswer) :
    MayFollow c h (.inventory r) := by
  simp [MayFollow, SramReadsBounded]

/-- A request of another frame than the two of the SRAM. -/
theorem mayFollow_of_code {fl cc : Byte} {p : List Byte} {r : IssueAnswer}
    (hr : cc ≠ c.ccReadSram) (hw : cc ≠ c.ccWriteSram) : MayFollow c h (.issue fl cc p r) := by
  simp [MayFollow, SramReadsBounded, hr.symm, hw]

theorem mayFollow_readSram {fl a sz : Byte} {r : IssueAnswer} (hc : c.ccReadSram ≠ c.ccWriteSram)
    (hsz : sz.toNat ≤ 0x0E) : MayFollow c h (.issue fl c.ccReadSram [a, sz] r) := by
  refine ⟨fun fl' p r' hmem => ?_, by simp [hc]⟩
  injection List.mem_singleton.mp hmem with _ _ hp _
  exact ⟨a, sz, hp, hsz⟩

theorem mayFollow_writeSram {fl a : Byte} {p : List Byte} {r : IssueAnswer}
    (hc : c.ccReadSram ≠ c.ccWriteSram) (hterm : a = mbxTermAddr → PayloadWritten c h) :
    MayFollow c h (.issue fl c.ccWriteSram (a :: p) r) := by
  refine ⟨by simp [SramReadsBounded, hc], fun fl' p' r' heq => hterm ?_⟩
  injection heq with _ _ hp _
  injection hp

/-! ### The relation -/

/-- t comes after s by calls that keep a disciplined history disciplined. -/
structure KeepsDiscipline (s t : State) : Prop where
  cfg : t.cfg = s.cfg
  kept : s.cfg.CodesDistinct → DisciplinedHistory s.cfg s.env.history →
    DisciplinedHistory s.cfg t.env.history

theorem KeepsDiscipline.trans (h : KeepsDiscipline s t) (k : KeepsDiscipline t u) :
    KeepsDiscipline s u where
  cfg := k.cfg.trans h.cfg
  kept hc hd := by
    have hk := k.kept
    rw [h.cfg] at hk
    exact hk hc (h.kept hc hd)

/-- The state an operation ends in, read off its result. -/
theorem KeepsDiscipline.of {α : Type} {x : α × State} {r : α} (k : KeepsDiscipline s x.2)
    (h : x = (r, t)) : KeepsDiscipline s t := by rw [h] at k; exact k

/-- A change that leaves the configuration and the transport alone makes no call. -/
theorem KeepsDiscipline.ofEnv (hcfg : t.cfg = s.cfg) (henv : t.env = s.env) : KeepsDiscipline s t :=
  ⟨hcfg, fun _ hd => by rw [henv]; exact hd⟩

/-- What follows the calls without making another. -/
theorem KeepsDiscipline.quiet (h : KeepsDiscipline s t) (hcfg : u.cfg = t.cfg)
    (henv : u.env = t.env) : KeepsDiscipline s u := h.trans (.ofEnv hcfg henv)

theorem KeepsDiscipline.ofCall {x : Call} (hcfg : t.cfg = s.cfg)
    (hcall : t.env.history = s.env.history ++ [x])
    (hx : s.cfg.CodesDistinct → MayFollow s.cfg s.env.history x) : KeepsDiscipline s t :=
  ⟨hcfg, fun hc hd => by rw [hcall]; exact disciplinedHistory_concat hd (hx hc)⟩

/-! ### The frames -/

theorem ccReadSram_ne_ccWriteSram (hc : c.CodesDistinct) : c.ccReadSram ≠ c.ccWriteSram := by
  simp_all [Cfg.CodesDistinct]

/-- The codes of the frames that do not touch the SRAM. -/
theorem mayFollow_offSram {fl cc : Byte} {p : List Byte} {r : IssueAnswer} (hc : c.CodesDistinct)
    (hcc : cc ∈ [c.ccSelect, c.ccReadConfig, c.ccWriteConfig]) : MayFollow c h (.issue fl cc p r) := by
  have hdisjoint := List.disjoint_of_nodup_append
    (l₁ := [c.ccSelect, c.ccReadConfig, c.ccWriteConfig]) (l₂ := [c.ccReadSram, c.ccWriteSram]) hc hcc
  exact mayFollow_of_code (fun h => hdisjoint (by simp [h])) (fun h => hdisjoint (by simp [h]))

theorem tReadConfig_keepsDiscipline (a : Byte) (s : State) :
    KeepsDiscipline s (tReadConfig a s).2 :=
  .ofCall rfl rfl fun hc => mayFollow_offSram hc (by simp)

theorem tWriteConfig_keepsDiscipline (a : Byte) (v : BitVec 32) (s : State) :
    KeepsDiscipline s (tWriteConfig a v s).2 :=
  .ofCall rfl rfl fun hc => mayFollow_offSram hc (by simp)

theorem tSelect_keepsDiscipline (s : State) : KeepsDiscipline s (tSelect s).2 :=
  .ofCall rfl rfl fun hc => mayFollow_offSram hc (by simp)

theorem tInventory_keepsDiscipline (s : State) : KeepsDiscipline s (tInventory s).2 :=
  .ofCall rfl rfl fun _ => mayFollow_inventory ..

theorem tReadSram_keepsDiscipline (a : Byte) {n : Nat} (hn : FrameCount n) (s : State) :
    KeepsDiscipline s (tReadSram a n s).2 := by
  have hsize : (sizeByte n).toNat ≤ 0x0E := by
    rw [sizeByte_toNat hn]
    omega
  exact .ofCall rfl rfl fun hc => mayFollow_readSram (ccReadSram_ne_ccWriteSram hc) hsize

theorem tWriteSram_keepsDiscipline {a : Byte} {s : State}
    (hterm : a = mbxTermAddr → PayloadWritten s.cfg s.env.history) (d : List Byte) :
    KeepsDiscipline s (tWriteSram a d s).2 :=
  .ofCall rfl rfl fun hc => mayFollow_writeSram (ccReadSram_ne_ccWriteSram hc) hterm

/-- A payload write that went through leaves a history a terminator may follow. -/
theorem payloadWritten_of_tWriteSram {d : List Byte} (h : tWriteSram mbxHdrAddr d s = (true, t)) :
    PayloadWritten t.cfg t.env.history := by
  rw [tWriteSram_eq] at h
  obtain ⟨hok, rfl⟩ := Prod.mk.inj h
  obtain ⟨f, fs, hframes⟩ := (writeOk_iff _).mp hok
  exact ⟨_, _, _, f, fs, by rw [← hframes]; rfl⟩

/-! ### The accessor, the session and the direction -/

theorem readBlock_keepsDiscipline (a : Byte) (s : State) : KeepsDiscipline s (readBlock a s).2 := by
  have hcall := tReadConfig_keepsDiscipline a s
  obtain ⟨_, h⟩ | ⟨_, _, h⟩ | ⟨_, b, _, _, h⟩ := readBlock_cases a s <;> rw [h]
  · exact .ofEnv rfl rfl
  · exact hcall.quiet rfl rfl
  · exact hcall.quiet rfl rfl

theorem readByte_keepsDiscipline (a : Byte) (off : Nat) (s : State) :
    KeepsDiscipline s (readByte a off s).2 := by
  obtain ⟨_, h⟩ | ⟨_, e, s1, hb, h⟩ | ⟨_, b, s1, hb, h⟩ := readByte_cases a off s <;> rw [h]
  · exact .ofEnv rfl rfl
  · exact (readBlock_keepsDiscipline a s).of hb
  · exact (readBlock_keepsDiscipline a s).of hb

theorem readField_keepsDiscipline (row : Option (Byte × Nat × Byte)) (s : State) :
    KeepsDiscipline s (readField row s).2 := by
  obtain ⟨_, h⟩ | ⟨a, off, m, _, ⟨e, s1, hb, h⟩ | ⟨v, s1, hb, h⟩⟩ := readField_cases row s <;> rw [h]
  · exact .ofEnv rfl rfl
  · exact (readByte_keepsDiscipline a off s).of hb
  · exact (readByte_keepsDiscipline a off s).of hb

theorem readNamed_keepsDiscipline (f : Field) (s : State) : KeepsDiscipline s (readNamed f s).2 :=
  readField_keepsDiscipline ..

theorem writeBlock_keepsDiscipline (a : Byte) (v : BitVec 32) (s : State) :
    KeepsDiscipline s (writeBlock a v s).2 := by
  have hcall := tWriteConfig_keepsDiscipline a v s
  obtain ⟨_, h⟩ | ⟨_, _, h⟩ | ⟨_, _, h⟩ := writeBlock_cases a v s <;> rw [h]
  · exact .ofEnv rfl rfl
  · exact hcall
  · exact hcall.quiet rfl rfl

theorem discover_keepsDiscipline (s : State) : KeepsDiscipline s (discover s).2 := by
  have hcall := tInventory_keepsDiscipline s
  obtain ⟨_, h⟩ | ⟨u, _, _, _, h⟩ := discover_cases s <;> rw [h] <;> exact hcall.quiet rfl rfl

theorem select_keepsDiscipline (s : State) : KeepsDiscipline s (select s).2 := by
  have hcall := tSelect_keepsDiscipline s
  obtain ⟨_, h⟩ | ⟨_, _, h⟩ | ⟨_, _, h⟩ := select_cases s <;> rw [h]
  · exact .ofEnv rfl rfl
  · exact hcall.quiet rfl rfl
  · exact hcall.quiet rfl rfl

theorem establish_keepsDiscipline (s : State) : KeepsDiscipline s (establish s).2 := by
  obtain ⟨k, s1, hd, h⟩ | ⟨s1, hd, h⟩ := establish_cases s <;> rw [h]
  · exact (discover_keepsDiscipline s).of hd
  · exact ((discover_keepsDiscipline s).of hd).trans (select_keepsDiscipline s1)

theorem finishDirection_keepsDiscipline (d : Direction) (s : State) :
    KeepsDiscipline s (finishDirection d s).2 :=
  .ofEnv (finishDirection_steady d s).cfg (finishDirection_env d s)

theorem dataDirection_keepsDiscipline (s : State) : KeepsDiscipline s (dataDirection s).2 := by
  obtain ⟨k, s1, h1, h⟩ | ⟨pt, s1, h1, hrest⟩ := dataDirection_cases s
  · rw [h]; exact (readNamed_keepsDiscipline _ s).of h1
  have e1 := (readNamed_keepsDiscipline _ s).of h1
  obtain ⟨k, s2, h2, h⟩ | ⟨ed, s2, h2, hrest⟩ := hrest
  · rw [h]; exact e1.trans ((readNamed_keepsDiscipline _ s1).of h2)
  have e2 := e1.trans ((readNamed_keepsDiscipline _ s1).of h2)
  have hstatus := readByte_keepsDiscipline 0xA0#8 1 s2
  obtain ⟨_, h⟩ | ⟨_, ⟨k, s3, h3, h⟩ | ⟨v, s3, h3, h⟩⟩ := hrest <;> rw [h]
  · exact e2.trans (finishDirection_keepsDiscipline ..)
  · exact e2.trans (hstatus.of h3)
  · exact e2.trans ((hstatus.of h3).trans (finishDirection_keepsDiscipline ..))

/-! ### The mailbox -/

theorem schedule_frameCount {n : Nat} (hn : n ≤ 62) : ∀ p ∈ schedule n, FrameCount p.2 := by
  rw [schedule_eq_windows]
  refine List.forall_mem_map.mpr fun i hi => ?_
  obtain ⟨hone, hmax, _⟩ := chunkWindow_bounds hn (List.mem_range.mp hi)
  exact ⟨hone, hmax⟩

theorem readChunks_keepsDiscipline {l : List (Byte × Nat)} (hl : ∀ p ∈ l, FrameCount p.2)
    (s : State) : KeepsDiscipline s (readChunks l s).2 := by
  induction l generalizing s with
  | nil => exact .ofEnv rfl rfl
  | cons p rest ih =>
    obtain ⟨hp, hrest⟩ := List.forall_mem_cons.mp hl
    have h := (tReadSram_keepsDiscipline p.1 hp s).trans (ih hrest _)
    simp only [readChunks]
    split <;> exact h

/-- The probe asks for one block, and the scheduler never for more than 15 (R161, R253). -/
theorem mbxRead_keepsDiscipline (tb : Byte) (s : State) : KeepsDiscipline s (mbxRead tb s).2 := by
  have hprobe := tReadSram_keepsDiscipline mbxHdrAddr (n := 1) (by decide) s
  obtain ⟨_, h⟩ | ⟨_, _, h⟩ | ⟨_, p, _, ⟨_, h⟩ | ⟨hn, m, s2, hc, h⟩⟩ := mbxRead_cases tb s <;> rw [h]
  · exact .ofEnv rfl rfl
  · exact hprobe.quiet rfl rfl
  · exact hprobe.quiet rfl rfl
  · have hchunks := (readChunks_keepsDiscipline (schedule_frameCount hn) _).of hc
    exact (hprobe.trans hchunks).quiet rfl rfl

/-- The terminator goes out only right after a payload write that went through (R164, R254). -/
theorem mbxWrite_keepsDiscipline (s : State) : KeepsDiscipline s (mbxWrite s).2 := by
  have hpayload (d : List Byte) : KeepsDiscipline s (tWriteSram mbxHdrAddr d s).2 :=
    tWriteSram_keepsDiscipline (fun h => absurd h (by decide)) d
  obtain ⟨_, h⟩ | ⟨_, _, ok1, s1, h1, ⟨_, h⟩ | ⟨rfl, ok2, s2, h2, hsent⟩⟩ := mbxWrite_cases s
  · rw [h]; exact .ofEnv rfl rfl
  · rw [h]; exact ((hpayload _).of h1).quiet rfl rfl
  have hterm := tWriteSram_keepsDiscipline (a := mbxTermAddr)
    (fun _ => payloadWritten_of_tWriteSram h1) terminator
  have hboth := ((hpayload _).of h1).trans (hterm.of h2)
  obtain ⟨_, h⟩ | ⟨_, h⟩ := hsent <;> rw [h]
  · exact hboth.quiet rfl rfl
  · exact hboth

/-! ### The handlers and the tick -/

theorem waitReadMailbox_keepsDiscipline (s : State) : KeepsDiscipline s (waitReadMailbox s).2 := by
  unfold waitReadMailbox
  have hm := mbxRead_keepsDiscipline 0#8 s
  rcases h : mbxRead 0#8 s with ⟨m | k, s1⟩
  · replace hm := hm.of h
    dsimp only
    split
    · have hr := readNamed_keepsDiscipline .sramDataRdy s1
      rcases h2 : readNamed .sramDataRdy s1 with ⟨v | k, s2⟩ <;> exact hm.trans (hr.of h2)
    · exact hm.quiet rfl rfl
  · exact hm.of h

theorem waitPoll_keepsDiscipline (s : State) : KeepsDiscipline s (waitPoll s).2 := by
  unfold waitPoll
  have hd := dataDirection_keepsDiscipline s
  rcases h : dataDirection s with ⟨d | k, s1⟩
  · replace hd := hd.of h
    dsimp only
    split
    · have hr := readNamed_keepsDiscipline .sramDataRdy s1
      rcases h2 : readNamed .sramDataRdy s1 with ⟨v | k, s2⟩
      · replace hr := hd.trans (hr.of h2)
        dsimp only
        split
        · exact hr.trans (waitReadMailbox_keepsDiscipline s2)
        · exact hr
      · exact hd.trans (hr.of h2)
    · exact hd
  · exact hd.of h

theorem hWaitNfcToI2c_keepsDiscipline (s : State) : KeepsDiscipline s (hWaitNfcToI2c s).2 := by
  unfold hWaitNfcToI2c
  have hd := dataDirection_keepsDiscipline s
  rcases h : dataDirection s with ⟨d | k, s1⟩
  · replace hd := hd.of h
    dsimp only
    split
    · have hw := mbxWrite_keepsDiscipline s1
      rcases h2 : mbxWrite s1 with ⟨_ | k, s2⟩ <;> exact hd.trans (hw.of h2)
    · exact hd
  · exact hd.of h

theorem takeHalt_keepsDiscipline (k : Kind) (s : State) : KeepsDiscipline s (takeHalt k s) :=
  .ofEnv (takeHalt_steady k s).cfg (takeHalt_env k s)

theorem runHandler_keepsDiscipline (h : Handler) (now : BitVec 32) (s : State) :
    KeepsDiscipline s (runHandler h now s).2 := by
  cases h with
  | init =>
    dsimp only [runHandler, hInit]
    have he := establish_keepsDiscipline s
    rcases hx : establish s with ⟨_ | k, s1⟩
    · exact (he.of hx).quiet rfl rfl
    · exact he.of hx
  | triggerEnergyHarvest =>
    dsimp only [runHandler, hTriggerEnergyHarvest]
    have hr := readNamed_keepsDiscipline .ehLoadOk s
    rcases hx : readNamed .ehLoadOk s with ⟨v | k, s1⟩ <;> exact hr.of hx
  | waitI2cToNfc =>
    dsimp only [runHandler, hWaitI2cToNfc]
    split
    · exact takeHalt_keepsDiscipline .timeout s
    · exact waitPoll_keepsDiscipline s
  | waitNfcToI2c => exact hWaitNfcToI2c_keepsDiscipline s
  | fatal => exact takeHalt_keepsDiscipline .fatal s

theorem tickBody_keepsDiscipline (h : Handler) (s : State) : KeepsDiscipline s (tickBody h s) := by
  have hr := runHandler_keepsDiscipline h s.inp.now s
  exact hr.quiet ((tickBody_tickCalls h s).cfg.trans hr.cfg.symm) (tickBody_env h s)

/-! ### The commands and the step -/

theorem answer_keepsDiscipline {α : Type} (layout : α → BitVec 32) {x : Result α × State}
    (h : KeepsDiscipline s x.2) : KeepsDiscipline s (answer layout x) := by
  rcases x with ⟨v | k, s1⟩ <;> exact h.quiet rfl rfl

theorem answerSelected_keepsDiscipline {x : Result Unit × State} (h : KeepsDiscipline s x.2) :
    KeepsDiscipline s (answerSelected x) := by
  rcases x with ⟨v | k, s1⟩ <;> exact h.quiet rfl rfl

/-- The halted answer makes no call. -/
theorem command_keepsDiscipline {body : State → State} (h : command body s = .next t)
    (hb : ∀ s, KeepsDiscipline s (body s)) : KeepsDiscipline s t := by
  obtain ⟨_, rfl⟩ | ⟨_, rfl⟩ := command_next h
  · exact .ofEnv rfl rfl
  · have hclear : KeepsDiscipline s (setLastErr 0#4 s) := .ofEnv rfl rfl
    exact hclear.trans (hb _)

theorem exec_keepsDiscipline {i : Instr} (hf : i.format = .cmd52) (h : exec i s = .next t) :
    KeepsDiscipline s t := by
  cases i <;> dsimp only [exec] at h
  case tick => exact command_keepsDiscipline h fun s => tickBody_keepsDiscipline _ s
  case readBlock a =>
    exact command_keepsDiscipline h fun s => answer_keepsDiscipline _ (readBlock_keepsDiscipline a s)
  case readByte a b =>
    exact command_keepsDiscipline h fun s => answer_keepsDiscipline _ (readByte_keepsDiscipline a _ s)
  case readRegisterBit | readConfigBit =>
    exact command_keepsDiscipline h fun s => answer_keepsDiscipline _ (readField_keepsDiscipline _ s)
  case writeBlock a w =>
    refine command_keepsDiscipline h fun s => ?_
    have hw := writeBlock_keepsDiscipline a w s
    rcases hx : writeBlock a w s with ⟨_ | k, s1⟩ <;> exact (hw.of hx).quiet rfl rfl
  case mbxRead b =>
    refine command_keepsDiscipline h fun s => ?_
    have hr := mbxRead_keepsDiscipline b s
    rcases hx : mbxRead b s with ⟨m | k, s1⟩ <;> exact (hr.of hx).quiet rfl rfl
  case mbxWrite =>
    exact command_keepsDiscipline h fun s => answer_keepsDiscipline _ (mbxWrite_keepsDiscipline s)
  case discover =>
    refine command_keepsDiscipline h fun s => ?_
    have hd := discover_keepsDiscipline s
    rcases hx : discover s with ⟨_ | k, s1⟩ <;> exact (hd.of hx).quiet rfl rfl
  case select =>
    exact command_keepsDiscipline h fun s => answerSelected_keepsDiscipline (select_keepsDiscipline s)
  case establish =>
    exact command_keepsDiscipline h fun s =>
      answerSelected_keepsDiscipline (establish_keepsDiscipline s)
  case dataDirection =>
    exact command_keepsDiscipline h fun s => answer_keepsDiscipline _ (dataDirection_keepsDiscipline s)
  case reservedOp oo => exact command_keepsDiscipline h fun s => .ofEnv rfl rfl
  all_goals cases hf

/-- Settles O49: a command makes only calls that may follow the history, and no other event makes one. -/
theorem stepKeepsHistoryDisciplined : Obligations.StepKeepsHistoryDisciplined := by
  intro s t hc hd h
  obtain ⟨henv, _, hcfg⟩ | ⟨i, inp, rest, hf, hexec⟩ := step_records_or_command h
  · rw [henv, hcfg]; exact hd
  · have hkeeps := exec_keepsDiscipline hf hexec
    rw [hkeeps.cfg]
    exact hkeeps.kept hc hd

end Sys2Proof.Machine
end
